-- ==== Sys2Proof/Word.lean ====
section
/-! DEFINITION. The two bit-vector widths the block's state and ports are made of. -/

namespace Sys2Proof

/-- One byte: a command word (R73), a frame byte (R24), the response byte `rsp_c` (R70). -/
abbrev Byte := BitVec 8

/-- One 32-bit word: an operand, a count, a sample, a response word (R5, R70). -/
abbrev Word := BitVec 32

end Sys2Proof
end

