-- ==== Sys2Proof/Config.lean ====
section
/-! DEFINITION. The compile-time configuration of a built block (00_scope.md R5, R6, R7).
LAT, the one parameter the spec leaves OPEN, is an argument of the cycle-level realisation
(Machine/Ports.lean): the transaction level has no time (R71). -/

namespace Sys2Proof

/-- The overflow policy OVF_POLICY (R6, R100). -/
inductive OvfPolicy where
  | unboundedSat
  | wrap8
  | sat8
deriving DecidableEq, Repr

/-- The frame layout LAYOUT (R6, R175, R178). -/
inductive Layout where
  | nibble
  | struct
deriving DecidableEq, Repr

/-- The configuration record of R6. Nothing at run time changes it (R28). -/
structure Config where
  /-- N_SAMPLES, the capacity of `vbuf`. -/
  nSamples : Nat
  /-- OVF_POLICY. -/
  ovfPolicy : OvfPolicy
  /-- OVF_W, used only under UNBOUNDED_SAT. -/
  ovfW : Nat
  /-- LAYOUT. -/
  layout : Layout
  /-- HAS_VCLR. -/
  hasVclr : Bool
deriving DecidableEq, Repr

/-- The legal ranges of R6. The policy, the layout and the flag are legal by their types. -/
def Config.wf (c : Config) : Bool :=
  decide (1 ≤ c.nSamples) && decide (c.nSamples ≤ 255) && decide (9 ≤ c.ovfW) && decide (c.ovfW ≤ 32)

/-- The defaults of R6. -/
def Config.default : Config where
  nSamples := 6
  ovfPolicy := .unboundedSat
  ovfW := 32
  layout := .nibble
  hasVclr := true

/-- OVF_WIDTH, the width in bits of each overflow counter (R7). -/
def Config.ovfWidth (c : Config) : Nat :=
  match c.ovfPolicy with
  | .unboundedSat => c.ovfW
  | .wrap8 => 8
  | .sat8 => 8

/-- OVF_MAX = 2^OVF_WIDTH - 1 (R7). -/
def Config.ovfMax (c : Config) : Nat := 2 ^ c.ovfWidth - 1

end Sys2Proof
end

