-- ==== Sys2Proof/Syntax.lean ====
section
/-! DEFINITION. The commands of the block, one constructor per row of spec/opcode_table.json
(30_encoding.md R75). -/

namespace Sys2Proof

/-- The two pulse channels: A is `ch` = 0, B is `ch` = 1 (R5, R73, R74). -/
inductive Channel where
  | a
  | b
deriving DecidableEq, Repr

/-- A decoded command. -/
inductive Instr where
  /-- NOP (R220). -/
  | nop
  /-- OVF c, "on_pulse_overflow(channel)" (R101). -/
  | ovf (c : Channel)
  /-- RDCH c, "read(channel)" (R103). -/
  | rdch (c : Channel)
  /-- FEED sample, the sample as its 32-bit two's-complement pattern (R74, R130). -/
  | feed (sample : Word)
  /-- VCLR, "reset()" of the averager (R132). -/
  | vclr
  /-- AVG, "average()" (R135). -/
  | avg
  /-- ENC, "encode(...)" (R170). -/
  | enc
  /-- STAT (R221). -/
  | stat
  /-- A word that spells no command, with the word itself, the one operand R223 names. -/
  | illegal (word : Byte)
deriving DecidableEq, Repr

end Sys2Proof
end

