-- ==== Sys2Proof/WellFormed.lean ====
section
/-! DEFINITION. Which commands a built block has: the list of illegal words of 30_encoding.md R77,
written from that rule alone (the decoder of R76 is written apart from it, in Decode.lean), and the
well-formedness of a command under HAS_VCLR. -/

namespace Sys2Proof

/-- The four kinds of illegal command word, in the order R77 lists them. -/
inductive IllegalKind where
  /-- `cmd[7:5] != 0` (224 words). -/
  | reservedBits
  /-- Opcode 0x8 to 0xF with `cmd[7:5] = 0` (16 words). -/
  | reservedOpcode
  /-- `ch = 1` with opcode 0x0, 0x3, 0x4, 0x5, 0x6 or 0x7 (6 words). -/
  | channelMisuse
  /-- Word 0x04 when HAS_VCLR is false (R133). -/
  | vclrAbsent
deriving DecidableEq, Repr

/-- The kind of illegality of a command word, if it is illegal (R77). Fields are taken by arithmetic:
`w / 32` is `cmd[7:5]`, `w % 16` the opcode, `w / 16 % 2` the channel bit (R73). -/
def illegalKind (hasVclr : Bool) (word : Byte) : Option IllegalKind :=
  if word.toNat / 32 ≠ 0 then some .reservedBits
  else if 8 ≤ word.toNat % 16 then some .reservedOpcode
  else if word.toNat / 16 % 2 = 1 ∧ word.toNat % 16 ≠ 1 ∧ word.toNat % 16 ≠ 2 then some .channelMisuse
  else if word.toNat = 4 ∧ hasVclr = false then some .vclrAbsent
  else none

/-- A command a block with this HAS_VCLR can be given: VCLR only where it is present (R132), an
illegal command only on a word R77 lists. Every operand value of every other command is legal (R74). -/
def Instr.wf (hasVclr : Bool) : Instr → Bool
  | .nop => true
  | .ovf _ => true
  | .rdch _ => true
  | .feed _ => true
  | .vclr => hasVclr
  | .avg => true
  | .enc => true
  | .stat => true
  | .illegal w => (illegalKind hasVclr w).isSome

end Sys2Proof
end

