-- ==== Sys2Proof/Decode.lean ====
section
/-! DEFINITION. Decoding of a command word and its operand (30_encoding.md R73 to R76), then the
encoder. The decoder is total: a word that spells no command decodes, by name, to the ILLEGAL row
(R76, R222), so it never refuses. Every command is one 8-bit word plus one 32-bit operand (R78). -/

namespace Sys2Proof

/-- `cmd[3:0]`, the opcode (R73). -/
def opField (cmd : Byte) : BitVec 4 := cmd.extractLsb' 0 4

/-- `cmd[4]`, the channel bit (R73). -/
def chField (cmd : Byte) : BitVec 1 := cmd.extractLsb' 4 1

/-- `cmd[7:5]`, the reserved bits (R73). -/
def rsvField (cmd : Byte) : BitVec 3 := cmd.extractLsb' 5 3

/-- `c = (cmd[4] = 0) ? A : B` (R74). -/
def channelOfBit (chb : BitVec 1) : Channel := if chb = 0 then .a else .b

/-- The decoder of R76, tested in its order, with the data operand of FEED taken whole (R74). Every
other command ignores the operand. -/
def decode (hasVclr : Bool) (cmd : Byte) (data : Word) : Instr :=
  if rsvField cmd ≠ 0 then .illegal cmd
  else if opField cmd = 1 then .ovf (channelOfBit (chField cmd))
  else if opField cmd = 2 then .rdch (channelOfBit (chField cmd))
  else if chField cmd ≠ 0 then .illegal cmd
  else if opField cmd = 0 then .nop
  else if opField cmd = 3 then .feed data
  else if opField cmd = 4 ∧ hasVclr = true then .vclr
  else if opField cmd = 4 then .illegal cmd
  else if opField cmd = 5 then .avg
  else if opField cmd = 6 then .enc
  else if opField cmd = 7 then .stat
  else .illegal cmd

/-- The channel bit of a channel (R73). -/
def bitOfChannel : Channel → BitVec 1
  | .a => 0
  | .b => 1

/-- A command word of format C with `rsv` = 000 (R73). -/
def formatC (chb : BitVec 1) (op : BitVec 4) : Byte := (0 : BitVec 3) ++ chb ++ op

/-- The command word of a command (R75). An illegal command's word is its own. -/
def encodeWord : Instr → Byte
  | .nop => formatC 0 0
  | .ovf c => formatC (bitOfChannel c) 1
  | .rdch c => formatC (bitOfChannel c) 2
  | .feed _ => formatC 0 3
  | .vclr => formatC 0 4
  | .avg => formatC 0 5
  | .enc => formatC 0 6
  | .stat => formatC 0 7
  | .illegal w => w

/-- The data operand of a command: FEED's sample, and 0 for every other command, as the assembler
gives it (R79). -/
def encodeData : Instr → Word
  | .nop => 0
  | .ovf _ => 0
  | .rdch _ => 0
  | .feed sample => sample
  | .vclr => 0
  | .avg => 0
  | .enc => 0
  | .stat => 0
  | .illegal _ => 0

/-- The words of a command: its command word and its data operand (R73). -/
def encode (i : Instr) : Byte × Word := (encodeWord i, encodeData i)

/-- The command word and the operand of an instruction whose bits are the low `nbits` bits of `w`,
numbered as spec/opcode_table.json numbers them: the command word is bits 7..0, the operand bits 39..8,
and every bit from `nbits` up is 0 (log 13). -/
def tableWordCommand (nbits w : Nat) : Byte × Word :=
  (BitVec.ofNat 8 (w % 2 ^ nbits), BitVec.ofNat 32 (w % 2 ^ nbits / 256))

/-- What the decoder of a block with the default configuration reads from an instruction given as
`nbits` bits. Every command is 8 + 32 bits (R78), so more than 40 bits are no command. -/
def decodeTableWord (nbits w : Nat) : Option Instr :=
  if nbits ≤ 40 then
    some (decode Config.default.hasVclr (tableWordCommand nbits w).1 (tableWordCommand nbits w).2)
  else none

end Sys2Proof
end

