-- ==== Sys2Proof/Machine/State.lean ====
section
/-! DEFINITION. The state of the block (10_state.md), the environment's events, the response record
(30_encoding.md R72), the reasons a step can stop, and the state after reset (R30). -/

namespace Sys2Proof.Machine

/-- The two outcomes a response reports (R70, R241). Codes 2 and 3 are never produced. -/
inductive Status where
  | ok
  | illegal
deriving DecidableEq, Repr

/-- A frame: its bytes in offset order. R180 makes it 12 of them; `State.Inv` in Safety.lean says so. -/
abbrev Frame := List Byte

/-- The response record of a step (R72). -/
structure Response where
  status : Status
  a : Word
  b : Word
  c : Byte
  frame : Option Frame
deriving DecidableEq, Repr

/-- What the block samples at the edge that accepts a command (R71): the word, the operand and the
two count inputs, which are free draws (R9). -/
structure Command where
  word : Byte
  data : Word
  drawA : Word
  drawB : Word
deriving DecidableEq, Repr

/-- What the environment can do to the block between two commands: present a command (R10), apply
reset (R270), or take the power away (R251). -/
inductive Event where
  | command (c : Command)
  | reset
  | powerLoss
deriving DecidableEq, Repr

/-- Why the block stops with a fault: never. The block's one error outcome, the illegal command, is
no trap and stops nothing (R223, R241, R244), and no value of any input makes a legal command fail
(R240). No constructor: nobody raises one, which is safe. -/
inductive Fault where
deriving DecidableEq, Repr

/-- Why the model refuses to go on. Each is a refusal the spec itself asks of a model. -/
inductive Refusal where
  /-- An instruction without a meaning. No arm of `exec` raises it. Safe: the model stops. -/
  | notModelled (mnemonic : String)
  /-- Raised by `step` on a configuration outside the legal ranges (R6: "A model refuses an ill-formed
  configuration"). Safe: the model stops. -/
  | illFormedConfig
  /-- Raised by `step` on a command before the first reset (R31: "A model refuses a run that issues a
  command before reset"). Safe: the model stops. -/
  | commandBeforeReset
  /-- Raised by `cycle` on a host that changes `cmd` or `cmd_data` while `cmd_valid` is high and
  `cmd_ready` is low (R10: "The model has no move for a host that breaks a duty"; I19). Safe: the model
  stops. -/
  | unstableCommand
  /-- Raised by `readFrameOut` while `frame_valid = 0` (R24; 93_implementation_defined.md I13). Safe. -/
  | noFrame
  /-- Raised by `Status.ofCode` on codes 2 and 3, which are never produced (R241, I15). Safe. -/
  | brokenStatusCode
  /-- Raised by `OvfPolicy.ofCode` on STAT policy code 3, which is never produced (R28, I15). Safe. -/
  | brokenPolicyCode
deriving DecidableEq, Repr

/-- The block and its environment. The fields `ovfA` to `errIll` are the whole state the spec gives
(10_state.md); the others are the model's own (INVENTORY.md, "State"; log 1 to 5). -/
structure State where
  /-- The configuration of the built block, which no step changes (R6, R28; log 1). -/
  cfg : Config
  /-- `ovf[A]` (R20): OVF_WIDTH bits, zero-extended (log 9). -/
  ovfA : Word
  /-- `ovf[B]` (R20). -/
  ovfB : Word
  /-- `vbuf` (R22): the held samples, oldest first, each the pattern of an s_32. -/
  vbuf : List Word
  /-- `frame_reg` (R24): none while it holds no architectural value. -/
  frameReg : Option Frame
  /-- `frame_valid` (R24). -/
  frameValid : Bool
  /-- `err_ill` (R25). -/
  errIll : Bool
  /-- The model's own: reset has been applied since power-up (R31; log 5). -/
  live : Bool
  /-- The model's own: `cnt_in[A]` as sampled for the command in execution (R9, R71; log 3). -/
  cntInA : Word
  /-- The model's own: `cnt_in[B]` as sampled for the command in execution. -/
  cntInB : Word
  /-- The model's own: what the environment still presents, first event first (R10, R60; log 2). -/
  inputs : List Event
  /-- The model's own: the responses since the last reset, first response first (R277; log 4). -/
  responses : List Response
deriving DecidableEq, Repr

/-- The block right after reset (R30, R270), built with the default configuration (R6): no input
presented yet, no response produced yet. The counts are a DESIGN CHOICE (log 3): no rule reads them
before a command brings its own. -/
def State.reset : State where
  cfg := Config.default
  ovfA := 0
  ovfB := 0
  vbuf := []
  frameReg := none
  frameValid := false
  errIll := false
  live := true
  cntInA := 0
  cntInB := 0
  inputs := []
  responses := []

end Sys2Proof.Machine
end

