-- ==== Sys2Proof/Machine/Operands.lean ====
section
/-! DEFINITION. What a command reads: the counter and the count draw of a channel (R20, R9), the
8-bit saturating view (R102), a sample's value (R74), the mean (R134) and ENC's snapshot (R171). -/

namespace Sys2Proof.Machine

/-- `ovf[c]` (R20). -/
def State.ovf (s : State) : Channel → Word
  | .a => s.ovfA
  | .b => s.ovfB

/-- `Draw(c)`, the count sampled for the current command (R9, R12). -/
def State.draw (s : State) : Channel → Word
  | .a => s.cntInA
  | .b => s.cntInB

/-- `len(vbuf)`, the fill (R22). -/
def State.fill (s : State) : Nat := s.vbuf.length

/-- `sat8(x) = min(x, 255)` (R102). -/
def sat8 (x : Word) : Byte := BitVec.ofNat 8 (min x.toNat 255)

/-- A sample as a signed millivolt value: s_32, two's complement, not scaled (R5, R74). -/
def sampleMv (x : Word) : Int := x.toInt

/-- The exact sum of the samples, without wrap (R134). -/
def sampleSum (l : List Word) : Int := (l.map sampleMv).sum

/-- `mean(l)` (R134): 0 for no sample, else the exact sum over the number of held samples, truncated
toward zero (`div0` of R12). -/
def mean (l : List Word) : Int :=
  if l.length = 0 then 0 else (sampleSum l).tdiv l.length

/-- ENC's inputs (R171). -/
structure Snapshot where
  ovA : Word
  ovB : Word
  cA : Word
  cB : Word
  v : Int
deriving DecidableEq, Repr

/-- `snapshot()` (R171): the counters, the two draws and the current mean, from one state (R57). -/
def snapshot (s : State) : Snapshot where
  ovA := s.ovf .a
  ovB := s.ovf .b
  cA := s.draw .a
  cB := s.draw .b
  v := mean s.vbuf

end Sys2Proof.Machine
end

