-- ==== Sys2Proof/Machine/Flags.lean ====
section
/-! DEFINITION. The block stores no flag (R27). Here are the values that act as flags: the NIBBLE
header (R173), the status code (R70) and the STAT word (R28, R221), each computed when asked for. -/

namespace Sys2Proof.Machine

/-- `hdr(ovA, ovB)` (R173): HDR_ERR exactly when a counter exceeds HDR_THRESHOLD, compared on the
whole counters. -/
def hdr (ovA ovB : Word) : Byte :=
  if 255 < ovA.toNat ∨ 255 < ovB.toNat then 0xFF else 0x00

/-- The 2-bit code of a status on `rsp_status` (R70, R241). -/
def Status.code : Status → BitVec 2
  | .ok => 0
  | .illegal => 1

/-- Reading a status code: codes 2 and 3 are never produced, and a model that sees them refuses
(R241, I15). -/
def Status.ofCode (code : BitVec 2) : Host.Outcome Status Fault Refusal :=
  if code = 0 then .next .ok
  else if code = 1 then .next .illegal
  else .refused .brokenStatusCode

/-- STAT's OVF_POLICY code (R28). -/
def policyCode : OvfPolicy → BitVec 2
  | .unboundedSat => 0
  | .wrap8 => 1
  | .sat8 => 2

/-- Reading STAT's policy code: code 3 is never produced, and a model that sees it refuses (R28, I15). -/
def policyOfCode (code : BitVec 2) : Host.Outcome OvfPolicy Fault Refusal :=
  if code = 0 then .next .unboundedSat
  else if code = 1 then .next .wrap8
  else if code = 2 then .next .sat8
  else .refused .brokenPolicyCode

/-- STAT's LAYOUT code (R28). -/
def layoutCode : Layout → BitVec 1
  | .nibble => 0
  | .struct => 1

/-- One bit, zero-extended to 32 (`zext_32` of R12). -/
def zextBit (b : Bool) : Word := (BitVec.ofBool b).setWidth 32

/-- The word STAT answers (R221), in the field layout of R28. -/
def statWord (s : State) : Word :=
  zextBit s.frameValid
    ||| (zextBit s.errIll <<< 1)
    ||| (BitVec.ofNat 32 s.fill <<< 8)
    ||| (BitVec.ofNat 32 s.cfg.nSamples <<< 16)
    ||| ((policyCode s.cfg.ovfPolicy).setWidth 32 <<< 24)
    ||| ((layoutCode s.cfg.layout).setWidth 32 <<< 26)
    ||| (zextBit s.cfg.hasVclr <<< 27)

end Sys2Proof.Machine
end

