-- ==== Sys2Proof/Machine/Ops.lean ====
section
/-! DEFINITION. The named operations on the state: one write per state element, the policy's
increment (R100), the buffer's append (R130), the byte order of a field (R12, R52), responding (R72),
the handling of an illegal command (R223), reset (R270) and power loss (R251). -/

namespace Sys2Proof.Machine

/-- `ovf[c] <- v` (R101). -/
def State.setOvf (s : State) (c : Channel) (v : Word) : State :=
  match c with
  | .a => { s with ovfA := v }
  | .b => { s with ovfB := v }

/-- `vbuf <- l` (R130, R132). -/
def State.setVbuf (s : State) (l : List Word) : State := { s with vbuf := l }

/-- `frame_reg <- bytes; frame_valid <- 1` (R170). -/
def State.setFrame (s : State) (f : Frame) : State := { s with frameReg := some f, frameValid := true }

/-- `err_ill <- 1` (R223). -/
def State.setErrIll (s : State) : State := { s with errIll := true }

/-- The response of the current command is produced (R11, R72). -/
def State.pushResponse (s : State) (r : Response) : State := { s with responses := s.responses ++ [r] }

/-- The step ends in `s` with response `r` (`respond` of R12). -/
def respond (r : Response) (s : State) : Host.Outcome State Fault Refusal := .next (s.pushResponse r)

/-- `respond(OK, a, b, c, none)`. -/
def respondOk (a b : Word) (c : Byte) (s : State) : Host.Outcome State Fault Refusal :=
  respond { status := .ok, a := a, b := b, c := c, frame := none } s

/-- `raise IllegalCommand` (R12, R223): the block's one error outcome, handled in place. There is no
trap entry and no trap return (R244, R245), so nothing else is saved or changed. -/
def raiseIllegal (s : State) : Host.Outcome State Fault Refusal :=
  respond { status := .illegal, a := 0, b := 0, c := 0, frame := none } s.setErrIll

/-- `inc(x)` of R100 under the block's one policy. UNBOUNDED_SAT keeps a value at or past its limit,
SAT8 answers 255 there, WRAP8 counts modulo 256. -/
def inc (cfg : Config) (x : Word) : Word :=
  match cfg.ovfPolicy with
  | .unboundedSat => if x.toNat < cfg.ovfMax then x + 1 else x
  | .wrap8 => BitVec.ofNat 32 ((x.toNat + 1) % 256)
  | .sat8 => if x.toNat < 255 then x + 1 else 255

/-- FEED's new buffer (R130): at capacity the oldest sample leaves, and the new one comes last. -/
def appendSample (capacity : Nat) (l : List Word) (sample : Word) : List Word :=
  if l.length = capacity then l.tail ++ [sample] else l ++ [sample]

/-- `LE16(v)` (R12). -/
def le16 (v : BitVec 16) : List Byte := [v.extractLsb' 0 8, v.extractLsb' 8 8]

/-- `LE32(v)` (R12). -/
def le32 (v : Word) : List Byte :=
  [v.extractLsb' 0 8, v.extractLsb' 8 8, v.extractLsb' 16 8, v.extractLsb' 24 8]

/-- `trunc_16(v)`: bits [15:0] of the two's-complement representation of the integer (R12, R176). -/
def trunc16 (v : Int) : BitVec 16 := BitVec.ofInt 16 v

/-- Reset (R270): every state element takes its reset value of R30, and a new run begins (R277). The
configuration and the count inputs are not state, so reset does not touch them (R271). -/
def applyReset (s : State) : State :=
  { s with
    ovfA := 0, ovfB := 0, vbuf := [], frameReg := none, frameValid := false, errIll := false,
    live := true, responses := [] }

/-- Power loss (R251): all state is lost, and until the next reset it holds no value (R31). The fields
are cleared so that nothing of the lost state remains; no rule reads them before reset (log 5). -/
def losePower (s : State) : State := { applyReset s with live := false }

/-- The sampling of the two count inputs at the edge that accepts a command (R71, R274). -/
def State.sampleCounts (s : State) (drawA drawB : Word) : State := { s with cntInA := drawA, cntInB := drawB }

end Sys2Proof.Machine
end

