-- ==== Sys2Proof/Machine/Accumulator.lean ====
section
/-! DEFINITION. The overflow accumulator commands (40_accumulator.md). -/

namespace Sys2Proof.Machine

/-- OVF c (R101). -/
def execOvf (c : Channel) (s : State) : Host.Outcome State Fault Refusal :=
  respondOk 0 0 0 (s.setOvf c (inc s.cfg (s.ovf c)))

/-- RDCH c (R103): the draw, the counter and its 8-bit view. -/
def execRdch (c : Channel) (s : State) : Host.Outcome State Fault Refusal :=
  respondOk (s.draw c) (s.ovf c) (sat8 (s.ovf c)) s

end Sys2Proof.Machine
end

