-- ==== Sys2Proof/Machine/Averager.lean ====
section
/-! DEFINITION. The voltage averager commands (41_averager.md). -/

namespace Sys2Proof.Machine

/-- FEED (R130). -/
def execFeed (sample : Word) (s : State) : Host.Outcome State Fault Refusal :=
  respondOk 0 0 0 (s.setVbuf (appendSample s.cfg.nSamples s.vbuf sample))

/-- VCLR (R132). A block built without it handles the command as an illegal one (R133). -/
def execVclr (s : State) : Host.Outcome State Fault Refusal :=
  if s.cfg.hasVclr then respondOk 0 0 0 (s.setVbuf []) else raiseIllegal s

/-- AVG (R135): the mean as a 32-bit pattern, and the fill. -/
def execAvg (s : State) : Host.Outcome State Fault Refusal :=
  respondOk (BitVec.ofInt 32 (mean s.vbuf)) (BitVec.ofNat 32 s.fill) 0 s

end Sys2Proof.Machine
end

