-- ==== Sys2Proof/Machine/Control.lean ====
section
/-! DEFINITION. The control commands and the illegal command (43_control.md). -/

namespace Sys2Proof.Machine

/-- NOP (R220). -/
def execNop (s : State) : Host.Outcome State Fault Refusal := respondOk 0 0 0 s

/-- STAT (R221). -/
def execStat (s : State) : Host.Outcome State Fault Refusal := respondOk (statWord s) 0 0 s

/-- An illegal command (R223). The word is not kept (R241), and every kind of illegality has this one
outcome (R243). -/
def execIllegal (_word : Byte) (s : State) : Host.Outcome State Fault Refusal := raiseIllegal s

end Sys2Proof.Machine
end

