-- ==== Sys2Proof/Machine/Encoder.lean ====
section
/-! DEFINITION. The frame encoder: the two layouts and ENC (42_encoder.md). -/

namespace Sys2Proof.Machine

/-- The overflow byte of a NIBBLE frame (R174): A's low four bits in the high nibble, B's in the low.
Values above 15 are masked on purpose (R182). -/
def ovbyte (ovA ovB : Word) : Byte :=
  ((ovA &&& 0xF).setWidth 8 <<< 4) ||| (ovB &&& 0xF).setWidth 8

/-- `enc_nibble` (R175). -/
def encNibble (n : Snapshot) : Frame :=
  [hdr n.ovA n.ovB] ++ [ovbyte n.ovA n.ovB] ++ le32 n.cA ++ le32 n.cB ++ le16 (trunc16 n.v)

/-- `enc_struct` (R178), each overflow byte saturated (R179). -/
def encStruct (n : Snapshot) : Frame :=
  le32 n.cA ++ [sat8 n.ovA] ++ le32 n.cB ++ [sat8 n.ovB] ++ le16 (trunc16 n.v)

/-- The frame of the block's one layout (R181). -/
def encodeFrame (l : Layout) (n : Snapshot) : Frame :=
  match l with
  | .nibble => encNibble n
  | .struct => encStruct n

/-- The byte ENC answers in `rsp.c` (R170): the frame's header under NIBBLE, 0 under STRUCT. -/
def encByte (l : Layout) (f : Frame) : Byte :=
  match l with
  | .nibble => f.headD 0
  | .struct => 0

/-- ENC (R170). -/
def execEnc (s : State) : Host.Outcome State Fault Refusal :=
  let f := encodeFrame s.cfg.layout (snapshot s)
  respond { status := .ok, a := 0, b := 0, c := encByte s.cfg.layout f, frame := some f } (s.setFrame f)

end Sys2Proof.Machine
end

