-- ==== Sys2Proof/Machine/Dispatch.lean ====
section
/-! DEFINITION. One arm per command, each one call of its meaning. -/

namespace Sys2Proof.Machine

def exec (i : Instr) (s : State) : Host.Outcome State Fault Refusal :=
  match i with
  | .nop => Sys2Proof.Machine.execNop s
  | .ovf c => Sys2Proof.Machine.execOvf c s
  | .rdch c => Sys2Proof.Machine.execRdch c s
  | .feed sample => Sys2Proof.Machine.execFeed sample s
  | .vclr => Sys2Proof.Machine.execVclr s
  | .avg => Sys2Proof.Machine.execAvg s
  | .enc => Sys2Proof.Machine.execEnc s
  | .stat => Sys2Proof.Machine.execStat s
  | .illegal word => Sys2Proof.Machine.execIllegal word s

end Sys2Proof.Machine
end

