-- ==== Sys2Proof/Machine/Fetch.lean ====
section
/-! DEFINITION. What a step is about to do: the model's stand-in for an instruction fetch. The block
fetches nothing (10_state.md R26, 20_memory.md R63): each command arrives from the host, here as the
first event of `inputs`. -/

namespace Sys2Proof.Machine

/-- What the next step does. -/
inductive Fetched where
  /-- Run this decoded command in this state. -/
  | run (i : Instr) (s : State)
  /-- No command runs; the state becomes this one. -/
  | moved (s : State)
  /-- The model has no meaning for it. -/
  | refuse (r : Refusal)
deriving DecidableEq, Repr

/-- Acceptance of a command (R71): it leaves the host's list, and the two counts are sampled. -/
def accept (s : State) (c : Command) (rest : List Event) : State :=
  { s with inputs := rest }.sampleCounts c.drawA c.drawB

/-- The next event taken. An ill-formed configuration is refused whatever the event (R6). With no
event the block is idle (R251). A command before the first reset is refused (R31). -/
def fetch (s : State) : Fetched :=
  if s.cfg.wf then
    match s.inputs with
    | [] => .moved s
    | .reset :: rest => .moved (applyReset { s with inputs := rest })
    | .powerLoss :: rest => .moved (losePower { s with inputs := rest })
    | .command c :: rest =>
      if s.live then .run (decode s.cfg.hasVclr c.word c.data) (accept s c rest)
      else .refuse .commandBeforeReset
  else .refuse .illFormedConfig

/-- The state with one command put in front of what the host presents, its counts those sampled last,
and with reset already applied, as the host's duty of R10 has it (log 6). -/
def placeCommand (s : State) (word : Byte) (data : Word) : State :=
  { s with
    inputs := .command { word := word, data := data, drawA := s.cntInA, drawB := s.cntInB } :: s.inputs,
    live := true }

end Sys2Proof.Machine
end

