-- ==== Sys2Proof/Machine/Step.lean ====
section
/-! DEFINITION. One step of the block: the atomic step of 00_scope.md R11, and the placing of one
command where the next step takes it. -/

namespace Sys2Proof.Machine

/-- One step (R11): the next event is taken, and a command runs whole. -/
def step (s : State) : Host.Outcome State Fault Refusal :=
  match fetch s with
  | .run i t => exec i t
  | .moved t => .next t
  | .refuse r => .refused r

/-- The state with the command of `nbits` bits `w` placed where `step` takes its next one. -/
def State.withFetchWord (s : State) (nbits w : Nat) : State :=
  placeCommand s (tableWordCommand nbits w).1 (tableWordCommand nbits w).2

end Sys2Proof.Machine
end

