-- ==== Sys2Proof/Machine/Assembler.lean ====
section
/-! DEFINITION. The command listings of 30_encoding.md R79: one command a line, and `k x <cmd>` for k
copies. It is notation for the spec's programs; `step` does not depend on it. A line is a list of
characters; it may hold several spaces, and a `;` begins a comment (log 20). -/

namespace Sys2Proof.Machine

/-- A line of a listing (R79). -/
inductive AsmLine where
  | nop
  | ovf (c : Channel)
  | rdch (c : Channel)
  /-- `feed <int32>`, the number as written. -/
  | feed (value : Int)
  | vclr
  | avg
  | enc
  | stat
  /-- `.word <byte>`, a raw command word. -/
  | word (value : Nat)
deriving DecidableEq, Repr

/-- The command word and operand of a line. A `feed` operand outside -2147483648 to 4294967295 is
refused, and one of 2^31 or more is its 32-bit pattern; every other command gets the operand 0 (R79). -/
def assembleLine : AsmLine → Option (Byte × Word)
  | .nop => some (encode .nop)
  | .ovf c => some (encode (.ovf c))
  | .rdch c => some (encode (.rdch c))
  | .feed v => if -2147483648 ≤ v ∧ v ≤ 4294967295 then some (encode (.feed (BitVec.ofInt 32 v))) else none
  | .vclr => some (encode .vclr)
  | .avg => some (encode .avg)
  | .enc => some (encode .enc)
  | .stat => some (encode .stat)
  | .word n => if n < 256 then some (BitVec.ofNat 8 n, 0) else none

/-- A listing: each line with how often it stands in a row (R79). -/
def assemble : List (Nat × AsmLine) → Option (List (Byte × Word))
  | [] => some []
  | (k, l) :: rest =>
    match assembleLine l, assemble rest with
    | some w, some ws => some (List.replicate k w ++ ws)
    | _, _ => none

/-- The value of a digit in a base up to 16. -/
def digitValue (base : Nat) (ch : Char) : Option Nat :=
  let n := ch.toNat
  let v := if 48 ≤ n ∧ n ≤ 57 then n - 48
    else if 97 ≤ n ∧ n ≤ 102 then n - 87
    else if 65 ≤ n ∧ n ≤ 70 then n - 55
    else 16
  if v < base then some v else none

/-- Digits read on from the value so far. -/
def parseDigits (base acc : Nat) : List Char → Option Nat
  | [] => some acc
  | ch :: rest => (digitValue base ch).bind fun d => parseDigits base (acc * base + d) rest

/-- A number, decimal or 0x-hex (R79). -/
def parseNat : List Char → Option Nat
  | [] => none
  | '0' :: 'x' :: [] => none
  | '0' :: 'x' :: ds => parseDigits 16 0 ds
  | ds => parseDigits 10 0 ds

/-- A number with an optional minus sign (R79: "two's complement when negative"). -/
def parseInt : List Char → Option Int
  | '-' :: ds => (parseNat ds).map fun n => -(n : Int)
  | ds => (parseNat ds).map fun n => (n : Int)

/-- A channel, written `a` or `b` (R79). -/
def parseChannel : List Char → Option Channel
  | ['a'] => some .a
  | ['b'] => some .b
  | _ => none

/-- The words of a line up to its comment, `cur` being the word read so far, backwards. -/
def tokens (cur : List Char) : List Char → List (List Char)
  | [] => if cur.isEmpty then [] else [cur.reverse]
  | ch :: rest =>
    if ch = ';' then (if cur.isEmpty then [] else [cur.reverse])
    else if ch = ' ' then (if cur.isEmpty then tokens [] rest else cur.reverse :: tokens [] rest)
    else tokens (ch :: cur) rest

/-- A command from its words: the mnemonic in lower case, then its operand (R79). -/
def parseWords : List (List Char) → Option AsmLine
  | [m] =>
    if m = ['n', 'o', 'p'] then some .nop
    else if m = ['v', 'c', 'l', 'r'] then some .vclr
    else if m = ['a', 'v', 'g'] then some .avg
    else if m = ['e', 'n', 'c'] then some .enc
    else if m = ['s', 't', 'a', 't'] then some .stat
    else none
  | [m, x] =>
    if m = ['o', 'v', 'f'] then (parseChannel x).map .ovf
    else if m = ['r', 'd', 'c', 'h'] then (parseChannel x).map .rdch
    else if m = ['f', 'e', 'e', 'd'] then (parseInt x).map .feed
    else if m = ['.', 'w', 'o', 'r', 'd'] then (parseNat x).map .word
    else none
  | _ => none

/-- One line of a listing, with the notation `k x <cmd>` (R79). -/
def parseLine (line : List Char) : Option (Nat × AsmLine) :=
  match tokens [] line with
  | k :: ['x'] :: ws => (parseNat k).bind fun n => (parseWords ws).map fun l => (n, l)
  | ws => (parseWords ws).map fun l => (1, l)

end Sys2Proof.Machine
end

