-- ==== Sys2Proof/Machine/HostMap.lean ====
section
/-! DEFINITION. How the host turns driver events into commands (41_averager.md R138, 60_exceptions.md
R242). It is the host's mapping, not the block's: the block does not enforce it (R138), and `step`
does not depend on it. -/

namespace Sys2Proof.Machine

/-- The driver events the source names (R138, R242, R248). -/
inductive DriverEvent where
  /-- The pulse counter's `overflow(channel)`. -/
  | overflow (c : Channel)
  /-- The battery's `update` with its reading in millivolts. -/
  | batteryUpdate (reading : Word)
  /-- Any other battery event. -/
  | batteryOther
  /-- The radio's `frame_start`. -/
  | radioFrameStart
  /-- The radio's `frame_done`. -/
  | radioFrameDone
  /-- The radio's `error`. -/
  | radioError
  /-- The button's `hold`. -/
  | buttonHold
deriving DecidableEq, Repr

/-- The command the host issues for an event, if any. Radio and button events never reach the block
(R242); with HAS_VCLR = false the host issues nothing for other battery events (R138). -/
def hostCommand (hasVclr : Bool) : DriverEvent → Option Instr
  | .overflow c => some (.ovf c)
  | .batteryUpdate reading => some (.feed reading)
  | .batteryOther => if hasVclr then some .vclr else none
  | .radioFrameStart => none
  | .radioFrameDone => none
  | .radioError => none
  | .buttonHold => none

end Sys2Proof.Machine
end

