-- ==== Sys2Proof/Machine/Ports.lean ====
section
/-! DEFINITION. The ports (30_encoding.md R70) and the cycle-level realisation of R71 and R270: at
each rising edge of `clk` the block takes at most one event, by the transaction-level `step`, and
`phase` remembers where the handshake stands. `step` does not depend on this file. -/

namespace Sys2Proof.Machine

/-- `frame_out` carries frame byte k on bits [8k+7:8k] (R24, R54). -/
def frameBits : Frame → BitVec 96
  | [] => 0
  | b :: rest => b.setWidth 96 ||| (frameBits rest <<< 8)

/-- What a host reads on `frame_out`: the frame while `frame_valid` = 1; without one it reads no value,
and the model refuses the read (R24, I13). -/
def readFrameOut (s : State) : Host.Outcome (BitVec 96) Fault Refusal :=
  match s.frameValid, s.frameReg with
  | true, some f => .next (frameBits f)
  | _, _ => .refused .noFrame

/-- The input ports at a rising edge (R70). -/
structure PortsIn where
  rst : Bool
  cmdValid : Bool
  cmd : Byte
  cmdData : Word
  cntInA : Word
  cntInB : Word
deriving DecidableEq, Repr

/-- The response ports while `rsp_valid` = 1 (R70). -/
structure RspPorts where
  status : BitVec 2
  a : Word
  b : Word
  c : Byte
deriving DecidableEq, Repr

/-- The output ports in one cycle (R70). `rsp` is none while `rsp_valid` = 0 and `frameOut` is none
while `frame_valid` = 0: the spec gives the ports no value there (log 16). -/
structure PortsOut where
  cmdReady : Bool
  rspValid : Bool
  rsp : Option RspPorts
  frameValid : Bool
  frameOut : Option (BitVec 96)
deriving DecidableEq, Repr

/-- What a realisation may choose: LAT of the k-th accepted command (R6, R71: OPEN, at least 1, may
differ between commands), and whether it is ready again in the very cycle of its response (log 7). -/
structure Realisation where
  lat : Nat → Nat
  readyInResponse : Bool

/-- LAT is at least 1 (R71). -/
def Realisation.Legal (r : Realisation) : Prop := ∀ k, 1 ≤ r.lat k

/-- Where the handshake of R71 stands. -/
inductive Phase where
  /-- No command outstanding. -/
  | idle
  /-- A command accepted, and this many edges before its response appears. -/
  | busy (left : Nat)
  /-- The one cycle of `rsp_valid`. -/
  | responding
deriving DecidableEq, Repr

/-- The block at the cycle level, with what of its host the next edge depends on. -/
structure Block where
  /-- The transaction-level state. -/
  core : State
  /-- Where the handshake stands. -/
  phase : Phase
  /-- How many commands have been accepted. -/
  accepted : Nat
  /-- The host's: the word and operand it presented at the last edge while `cmd_ready` was low, which it
  must hold stable (R10; log 22). -/
  waiting : Option (Byte × Word)
deriving DecidableEq, Repr

/-- The phase `n` edges before a response appears, seen after one of them. -/
def countDown (n : Nat) : Phase := if n ≤ 1 then .responding else .busy (n - 1)

/-- Whether the block can accept a command in this phase: not between acceptance and response (R71), and
in the cycle of the response as the realisation has it (log 7). DESIGN CHOICE (log 21): in every idle cycle
it can, where the spec says so only of the first one after reset (R271). -/
def Realisation.ready (r : Realisation) : Phase → Bool
  | .idle => true
  | .busy _ => false
  | .responding => r.readyInResponse

/-- `cmd_ready` (R70): 0 while `rst` = 1 (R270), else as the phase has it. -/
def cmdReady (r : Realisation) (rst : Bool) (b : Block) : Bool := !rst && r.ready b.phase

/-- The host's duty of R10 at an edge: a command that it presented while `cmd_ready` was low, and still
presents, has the same `cmd` and `cmd_data`. The host may withdraw it (log 22). -/
def keepsStable (p : PortsIn) (b : Block) : Bool :=
  match b.waiting with
  | some (word, data) => !p.cmdValid || (decide (p.cmd = word) && decide (p.cmdData = data))
  | none => true

/-- The command the host must hold from an edge on: one presented while `cmd_ready` was low (R10). -/
def nextWaiting (r : Realisation) (p : PortsIn) (b : Block) : Option (Byte × Word) :=
  if p.cmdValid && !cmdReady r p.rst b then some (p.cmd, p.cmdData) else none

/-- The event the block takes at an edge (R71, R270): reset while `rst` = 1, else a command when
`cmd_valid` and `cmd_ready` are both 1, else nothing. -/
def taken (r : Realisation) (p : PortsIn) (b : Block) : Option Event :=
  if p.rst then some .reset
  else if p.cmdValid && cmdReady r p.rst b then
    some (.command { word := p.cmd, data := p.cmdData, drawA := p.cntInA, drawB := p.cntInB })
  else none

/-- The phase after an edge that takes this event: reset drops a command in flight (R270), acceptance
starts its LAT, and otherwise the count goes down and a response lasts one cycle (R71). -/
def nextPhase (r : Realisation) (b : Block) : Option Event → Phase
  | some (.command _) => countDown (r.lat b.accepted)
  | some _ => .idle
  | none =>
    match b.phase with
    | .busy n => countDown n
    | _ => .idle

/-- How many commands have been accepted after an edge that takes this event. -/
def nextAccepted (b : Block) : Option Event → Nat
  | some (.command _) => b.accepted + 1
  | _ => b.accepted

/-- One rising edge of `clk`: the transaction-level step on the event taken, if any, and the new phase.
The state is written at the accepting edge (R71: "At that edge ... It performs the step"; log 14). A host
that breaks its duty of holding a command stable has no move (R10; 93_implementation_defined.md I19). -/
def cycle (r : Realisation) (p : PortsIn) (b : Block) : Host.Outcome Block Fault Refusal :=
  if keepsStable p b then
    match step { b.core with inputs := (taken r p b).toList } with
    | .next t => .next
        { core := t, phase := nextPhase r b (taken r p b), accepted := nextAccepted b (taken r p b),
          waiting := nextWaiting r p b }
    | .fault f => .fault f
    | .refused e => .refused e
  else .refused .unstableCommand

/-- A response on the ports (R70, R72). -/
def rspPorts (x : Response) : RspPorts where
  status := x.status.code
  a := x.a
  b := x.b
  c := x.c

/-- The output ports in the cycle before an edge, with `rst` as the host drives it (R70, R71, R270:
while `rst` = 1, `cmd_ready` and `rsp_valid` are 0). -/
def outputs (r : Realisation) (rst : Bool) (b : Block) : PortsOut where
  cmdReady := cmdReady r rst b
  rspValid := !rst && decide (b.phase = .responding)
  rsp := if !rst && decide (b.phase = .responding) then b.core.responses.getLast?.map rspPorts else none
  frameValid := b.core.frameValid
  frameOut := if b.core.frameValid then b.core.frameReg.map frameBits else none

/-- A run of cycles over the inputs the host drives, first edge first. -/
def cycles (r : Realisation) : List PortsIn → Block → Host.Outcome Block Fault Refusal
  | [], b => .next b
  | p :: ps, b =>
    match cycle r p b with
    | .next b' => cycles r ps b'
    | .fault f => .fault f
    | .refused e => .refused e

/-- The transaction-level events of a run of cycles: what the block took, in the order of its edges
(R59, R71: "It has only the order of steps"). An edge that is refused takes nothing. -/
def transactions (r : Realisation) : List PortsIn → Block → List Event
  | [], _ => []
  | p :: ps, b =>
    match cycle r p b with
    | .next b' => (taken r p b).toList ++ transactions r ps b'
    | _ => []

end Sys2Proof.Machine
end

