-- ==== Sys2Proof/Safety.lean ====
section
/-! DEFINITION. The terms claims use: the invariant of the block's state, the premise "no fault
recorded" (10_state.md R25), and the two events that take the block's state away. -/

namespace Sys2Proof.Machine

/-- A frame register holds 12 bytes exactly while it is valid (R24, R180). -/
def frameOk (valid : Bool) : Option Frame → Bool
  | none => !valid
  | some f => valid && decide (f.length = 12)

/-- The invariant of every state of the block: a legal configuration (R6), counters that fit their
width (R20, R7), a fill of at most N_SAMPLES (R22), and the frame register as R24 has it. -/
def State.inv (s : State) : Bool :=
  s.cfg.wf && decide (s.ovfA.toNat ≤ s.cfg.ovfMax) && decide (s.ovfB.toNat ≤ s.cfg.ovfMax)
    && decide (s.vbuf.length ≤ s.cfg.nSamples) && frameOk s.frameValid s.frameReg

/-- "No fault recorded": no illegal command since reset (R25). -/
abbrev State.noFaultRecorded (s : State) : Prop := s.errIll = false

/-- The next event of the environment takes all state away: reset (R270) or power loss (R251). -/
abbrev State.clearedNext (s : State) : Prop :=
  s.inputs.head? = some .reset ∨ s.inputs.head? = some .powerLoss

end Sys2Proof.Machine
end

