-- ==== Sys2Proof/Certificates/Slice0/Obligations.lean ====
section
/-! DEFINITION. The statements for the provers. Each docstring names the rules of spec/ it rests on.
The block has no addressable memory (R50), so no frame speaks of memory: a frame here is an equation
for the WHOLE next state. A response is a literal Response: status, a, b, c, frame (R72). -/

open Sys2Proof Sys2Proof.Machine

/-! ## Encoding -/

/-- R73, R75, R76, R77: decoding what the encoder writes for any command a block can be given, every
operand at every value, gives that command back. -/
def Obligations.DecodeOfEncodeIsTheCommand : Prop :=
  ∀ (hv : Bool) (i : Instr), i.wf hv = true → decode hv (encode i).1 (encode i).2 = i

/-- R73, R74, R76, R79: encoding what a word decodes to gives the word back, with FEED's operand, and
the operand 0 of every other command. -/
def Obligations.EncodeOfDecodeIsTheWord : Prop :=
  ∀ (hv : Bool) (cmd : Byte) (data : Word),
    encode (decode hv cmd data) = (cmd, if cmd = 0x03 then data else 0)

/-- R76, R77: the decoder never gives an illegal command on a legal word, nor VCLR where it is absent. -/
def Obligations.DecodedCommandIsWellFormed : Prop :=
  ∀ (hv : Bool) (cmd : Byte) (data : Word), (decode hv cmd data).wf hv = true

/-- R76 whole: the decoder on every command word, and its two counts of legal words. -/
def Obligations.DecodeFollowsTheCommandWords : Prop :=
  ∀ (hv : Bool) (cmd : Byte) (data : Word),
    decode hv cmd data =
      (if cmd = 0x00 then .nop
       else if cmd = 0x01 then .ovf .a
       else if cmd = 0x11 then .ovf .b
       else if cmd = 0x02 then .rdch .a
       else if cmd = 0x12 then .rdch .b
       else if cmd = 0x03 then .feed data
       else if cmd = 0x04 ∧ hv = true then .vclr
       else if cmd = 0x05 then .avg
       else if cmd = 0x06 then .enc
       else if cmd = 0x07 then .stat
       else .illegal cmd) ∧
    (List.range 256).countP
        (fun n => decide (decode hv (BitVec.ofNat 8 n) data ≠ .illegal (BitVec.ofNat 8 n)))
      = if hv then 10 else 9

/-- R77 and R76: the words the decoder calls illegal are exactly those of R77's list, and the list's
kinds have 224, 16 and 6 words, and one more without VCLR. -/
def Obligations.IllegalWordsAreThoseListed : Prop :=
  ∀ (hv : Bool) (cmd : Byte) (data : Word),
    (decode hv cmd data = .illegal cmd ↔
      (cmd.toNat / 32 ≠ 0 ∨ (cmd.toNat / 32 = 0 ∧ 8 ≤ cmd.toNat % 16) ∨
        (cmd.toNat / 32 = 0 ∧ cmd.toNat / 16 % 2 = 1 ∧ cmd.toNat % 16 ∈ [0, 3, 4, 5, 6, 7]) ∨
        (cmd.toNat = 4 ∧ hv = false))) ∧
    (List.range 256).countP (fun n => illegalKind hv (BitVec.ofNat 8 n) = some .reservedBits) = 224 ∧
    (List.range 256).countP (fun n => illegalKind hv (BitVec.ofNat 8 n) = some .reservedOpcode) = 16 ∧
    (List.range 256).countP (fun n => illegalKind hv (BitVec.ofNat 8 n) = some .channelMisuse) = 6 ∧
    (List.range 256).countP (fun n => illegalKind hv (BitVec.ofNat 8 n) = some .vclrAbsent)
      = if hv then 0 else 1

/-- R74: FEED takes the operand whole, and no other command word's meaning depends on it. -/
def Obligations.OnlyFeedReadsTheOperand : Prop :=
  ∀ (hv : Bool) (cmd : Byte) (d d' : Word),
    (cmd ≠ 0x03 → decode hv cmd d = decode hv cmd d') ∧ decode hv 0x03 d = .feed d

/-- R73, R75, 95_test_vectors.md: a few words written out bit by bit from the encoding of R73 decode to
the commands R75 assigns them. -/
def Obligations.WrittenOutWordsDecode : Prop :=
  decode true 0b00000000 0 = .nop ∧ decode true 0b00010001 0 = .ovf .b ∧
  decode true 0b00000010 0 = .rdch .a ∧ decode true 0b00000011 0x80000000 = .feed 0x80000000 ∧
  decode true 0b00000100 0 = .vclr ∧ decode true 0b00000110 0 = .enc ∧
  decode true 0b00000111 0 = .stat ∧ decode true 0b00010011 0 = .illegal 0b00010011

/-! ## The step -/

/-- R11, R71: with a command next, in a legal block that has been reset, a step is `exec` of the decoded
command, in the state whose host list has lost it and whose count inputs are its samples. The list and
the held samples are the model's fields (log 2, log 3). -/
def Obligations.StepRunsTheDecodedCommand : Prop :=
  ∀ (s : State) (c : Command) (rest : List Event), s.cfg.wf = true → s.live = true →
    s.inputs = .command c :: rest →
    step s = exec (decode s.cfg.hasVclr c.word c.data)
      { s with inputs := rest, cntInA := c.drawA, cntInB := c.drawB }

/-- The model's own placing of a command (log 6, log 13): the next step runs exactly the command the
decoder reads from the placed bits. -/
def Obligations.PlacedWordRunsNext : Prop :=
  ∀ (s : State) (nbits w : Nat) (i : Instr), s.cfg.wf = true → s.cfg.hasVclr = true →
    decodeTableWord nbits w = some i →
    step (s.withFetchWord nbits w) = exec i { s with live := true }

/-- R251: the block is idle whenever no command is presented: the model's step then keeps the state (log 2). -/
def Obligations.StepWithoutInputIsIdle : Prop :=
  ∀ s : State, s.cfg.wf = true → s.inputs = [] → step s = .next s

/-- R6: a configuration outside the legal ranges is refused. That even an idle step is refused is the
model's choice (log 11). -/
def Obligations.IllFormedConfigurationIsRefused : Prop :=
  ∀ s : State, ¬ (1 ≤ s.cfg.nSamples ∧ s.cfg.nSamples ≤ 255 ∧ 9 ≤ s.cfg.ovfW ∧ s.cfg.ovfW ≤ 32) →
    step s = .refused .illFormedConfig

/-- R31: a command before the first reset is refused. The bit `live` that tells is the model's (log 5). -/
def Obligations.CommandBeforeResetIsRefused : Prop :=
  ∀ (s : State) (c : Command) (rest : List Event), s.cfg.wf = true → s.live = false →
    s.inputs = .command c :: rest → step s = .refused .commandBeforeReset

/-- R270, R271: reset sets every state element to its reset value, at any time, and touches neither the
configuration nor the count inputs. That the list of responses starts anew and the block counts as
reset is the model's choice (log 4, log 5). -/
def Obligations.ResetSetsEveryElement : Prop :=
  ∀ (s : State) (rest : List Event), s.cfg.wf = true → s.inputs = .reset :: rest →
    step s = .next
      { cfg := s.cfg, ovfA := 0, ovfB := 0, vbuf := [], frameReg := none, frameValid := false,
        errIll := false, live := true, cntInA := s.cntInA, cntInB := s.cntInB, inputs := rest,
        responses := [] }

/-- R30: the reset values, of every state element the spec gives. -/
def Obligations.ResetStateHoldsTheResetValues : Prop :=
  (∀ c, State.reset.ovf c = 0) ∧ State.reset.vbuf = [] ∧ State.reset.frameValid = false ∧
    State.reset.frameReg = none ∧ State.reset.errIll = false

/-- R270: a command that reset overtakes leaves no trace. Taking it and then reset gives what reset
alone gives, but for the count samples, which are inputs and no state (R271, log 3). -/
def Obligations.ResetDropsTheCommandBeforeIt : Prop :=
  ∀ (s : State) (c : Command) (rest : List Event), s.cfg.wf = true → s.live = true →
    s.inputs = .command c :: .reset :: rest →
    ∃ t u, step s = .next t ∧ step t = .next { u with cntInA := c.drawA, cntInB := c.drawB } ∧
      step { s with inputs := .reset :: rest } = .next u

/-- R251, R31: after power loss a command is refused until a reset has been applied. Power loss as one
event, the bit `live` and `frame_valid` = 0 before the reset are the model's choice (log 5). -/
def Obligations.PowerLossNeedsReset : Prop :=
  ∀ (s : State) (c : Command) (rest : List Event), s.cfg.wf = true →
    s.inputs = .powerLoss :: .command c :: rest →
    ∃ t, step s = .next t ∧ t.live = false ∧ t.frameValid = false ∧
      step t = .refused .commandBeforeReset

/-- R6, R28: nothing at run time changes the configuration. -/
def Obligations.StepKeepsTheConfiguration : Prop :=
  ∀ s t : State, step s = .next t → t.cfg = s.cfg

/-! ## Control commands -/

/-- R220: NOP answers {OK, 0, 0, 0} and leaves everything else unchanged; 0x00 is the only NOP. -/
def Obligations.NopLeavesTheStateUnchanged : Prop :=
  (∀ s : State, exec .nop s = .next { s with responses := s.responses ++ [⟨.ok, 0, 0, 0, none⟩] }) ∧
  (∀ (hv : Bool) (cmd : Byte) (data : Word), decode hv cmd data = .nop ↔ cmd = 0x00)

/-- R221, R28: STAT changes nothing but its response, whose word holds every field of R28 in its place
and 0 in the reserved bits. -/
def Obligations.StatAnswersTheStatusWord : Prop :=
  ∀ s : State, s.inv = true →
    ∃ w : Word, exec .stat s = .next { s with responses := s.responses ++ [⟨.ok, w, 0, 0, none⟩] } ∧
      w.extractLsb' 0 1 = BitVec.ofBool s.frameValid ∧
      w.extractLsb' 1 1 = BitVec.ofBool s.errIll ∧
      w.extractLsb' 2 6 = 0 ∧
      (w.extractLsb' 8 8).toNat = s.vbuf.length ∧
      (w.extractLsb' 16 8).toNat = s.cfg.nSamples ∧
      w.extractLsb' 24 2 =
        (match s.cfg.ovfPolicy with | .unboundedSat => 0 | .wrap8 => 1 | .sat8 => 2) ∧
      w.extractLsb' 26 1 = (match s.cfg.layout with | .nibble => 0 | .struct => 1) ∧
      w.extractLsb' 27 1 = BitVec.ofBool s.cfg.hasVclr ∧
      w.extractLsb' 28 4 = 0

/-- R223, R244: an illegal command sets `err_ill`, answers ILLEGAL, and changes nothing else. -/
def Obligations.IllegalCommandSetsOnlyTheErrorBit : Prop :=
  ∀ (w : Byte) (s : State),
    exec (.illegal w) s =
      .next { s with errIll := true, responses := s.responses ++ [⟨.illegal, 0, 0, 0, none⟩] }

/-- R25: `err_ill` is sticky. A step sets it exactly when it runs an illegal word, and reset clears it. That
it is also 0 after power loss is the model's choice (log 5): the spec says only that the state is lost. -/
def Obligations.ErrorBitIsSticky : Prop :=
  ∀ s t : State, step s = .next t →
    (s.clearedNext → t.errIll = false) ∧
    (¬ s.clearedNext →
      (t.errIll = true ↔ s.errIll = true ∨
        ∃ c rest, s.inputs = .command c :: rest ∧
          ∃ k, illegalKind s.cfg.hasVclr c.word = some k))

/-- R240, R241, R72: every command answers once, whatever the state and the operands; it answers ILLEGAL
exactly when it is illegal; a frame comes with ENC alone and is the new `frame_reg`. -/
def Obligations.EveryCommandAnswersOnce : Prop :=
  ∀ (i : Instr) (s : State), i.wf s.cfg.hasVclr = true →
    ∃ t r, exec i s = .next t ∧ t.responses = s.responses ++ [r] ∧
      (r.status = .illegal ↔ ∃ w, i = .illegal w) ∧
      (i = .enc → r.frame = t.frameReg ∧ r.frame ≠ none) ∧ (i ≠ .enc → r.frame = none)

/-- R58: RDCH, AVG, STAT and NOP change no state; only their response is produced. -/
def Obligations.ReadsChangeNoState : Prop :=
  ∀ (i : Instr) (s : State), i ∈ [.rdch .a, .rdch .b, .avg, .stat, .nop] →
    ∃ r, exec i s = .next { s with responses := s.responses ++ [r] }

/-! ## Overflow accumulator -/

/-- R100, R101: OVF applies the policy's increment to its own counter and changes nothing else. -/
def Obligations.OvfAppliesThePolicyOnce : Prop :=
  ∀ (c : Channel) (s : State), s.cfg.wf = true →
    ∃ v : Word,
      exec (.ovf c) s = .next
        (match c with
         | .a => { s with ovfA := v, responses := s.responses ++ [⟨.ok, 0, 0, 0, none⟩] }
         | .b => { s with ovfB := v, responses := s.responses ++ [⟨.ok, 0, 0, 0, none⟩] }) ∧
      v.toNat =
        (match s.cfg.ovfPolicy with
         | .unboundedSat =>
           if (s.ovf c).toNat < 2 ^ s.cfg.ovfW - 1 then (s.ovf c).toNat + 1 else (s.ovf c).toNat
         | .wrap8 => ((s.ovf c).toNat + 1) % 256
         | .sat8 => if (s.ovf c).toNat < 255 then (s.ovf c).toNat + 1 else 255)

/-- R102, R103: RDCH answers the count draw of its channel, the whole counter and the counter clamped at
255, and changes nothing else. -/
def Obligations.RdchReportsTheChannel : Prop :=
  ∀ (c : Channel) (s : State), ∃ r : Response,
    exec (.rdch c) s = .next { s with responses := s.responses ++ [r] } ∧
      r.status = .ok ∧
      r.a = (match c with | .a => s.cntInA | .b => s.cntInB) ∧
      r.b = (match c with | .a => s.ovfA | .b => s.ovfB) ∧
      r.c.toNat = min r.b.toNat 255 ∧ r.frame = none

/-- R105: a counter changes only in a step that runs OVF of its own channel, or in reset (or power loss,
R251). -/
def Obligations.OnlyOvfChangesItsCounter : Prop :=
  ∀ (s t : State) (c : Channel), step s = .next t → t.ovf c ≠ s.ovf c →
    s.clearedNext ∨
      ∃ cmd rest, s.inputs = .command cmd :: rest ∧
        decode s.cfg.hasVclr cmd.word cmd.data = .ovf c

/-- R106: under UNBOUNDED_SAT the header error condition, once true, stays true until reset; under the
other policies it is never true and the NIBBLE header is 0x00. -/
def Obligations.HeaderErrorConditionStays : Prop :=
  (∀ (s t : State) (c : Channel), s.cfg.ovfPolicy = .unboundedSat → step s = .next t →
    ¬ s.clearedNext → 255 < (s.ovf c).toNat → 255 < (t.ovf c).toNat) ∧
  (∀ s : State, s.inv = true → s.cfg.ovfPolicy ≠ .unboundedSat →
    (∀ c, (s.ovf c).toNat ≤ 255) ∧ hdr s.ovfA s.ovfB = 0x00)

/-- R104: from reset, in every legal configuration and after every list of commands, a counter is the
policy's function of how many of them were OVF of its channel, and RDCH reports it so. -/
def Obligations.CounterAfterKOverflowEvents : Prop :=
  ∀ (cfg : Config) (cmds : List Command) (c : Channel), cfg.wf = true →
    ∃ t r, Host.Core.run Sys2Proof.core cmds.length
          { State.reset with cfg := cfg, inputs := cmds.map .command } = .next t ∧
      exec (.rdch c) t = .next { t with responses := t.responses ++ [r] } ∧
      r.b = t.ovf c ∧
      (let k := cmds.countP (fun m => decide (decode cfg.hasVclr m.word m.data = .ovf c))
       match cfg.ovfPolicy with
       | .unboundedSat => r.b.toNat = min k (2 ^ cfg.ovfW - 1) ∧ r.c.toNat = min k 255
       | .wrap8 => r.b.toNat = k % 256 ∧ r.c.toNat = k % 256
       | .sat8 => r.b.toNat = min k 255 ∧ r.c.toNat = min k 255)

/-! ## Voltage averager -/

/-- R130: FEED appends its sample last, the oldest leaving a full buffer, and changes nothing else. -/
def Obligations.FeedAppendsTheSample : Prop :=
  ∀ (x : Word) (s : State),
    exec (.feed x) s = .next
      { s with
        vbuf := if s.vbuf.length = s.cfg.nSamples then s.vbuf.tail ++ [x] else s.vbuf ++ [x],
        responses := s.responses ++ [⟨.ok, 0, 0, 0, none⟩] }

/-- R131: from any state, after any list of commands with no VCLR among them, m of which are FEED, the
buffer is the newest samples, as many as fit. The host list `inputs` is the model's field (log 2). -/
def Obligations.FeedsKeepTheNewestSamples : Prop :=
  ∀ (s : State) (cmds : List Command), s.inv = true → s.live = true →
    (∀ m ∈ cmds, decode s.cfg.hasVclr m.word m.data ≠ .vclr) → s.inputs = cmds.map .command →
    ∃ t, Host.Core.run Sys2Proof.core cmds.length s = .next t ∧
      (let fed := (cmds.filter (fun m => decide (m.word = 0x03))).map Command.data
       t.vbuf = (s.vbuf ++ fed).drop
        (s.vbuf.length + fed.length - min (s.vbuf.length + fed.length) s.cfg.nSamples))

/-- R132: VCLR empties the buffer and changes nothing else. -/
def Obligations.VclrEmptiesTheBuffer : Prop :=
  ∀ s : State, s.cfg.hasVclr = true →
    exec .vclr s = .next { s with vbuf := [], responses := s.responses ++ [⟨.ok, 0, 0, 0, none⟩] }

/-- R133: without VCLR, word 0x04 is an illegal command, only reset lowers the fill, and a full buffer stays
full. That `exec` of the command VCLR itself, to which no word then decodes, also takes the illegal path is
the model's choice (log 12), and so is the empty buffer after power loss (log 5). -/
def Obligations.WithoutVclrOnlyResetLowersTheFill : Prop :=
  (∀ data, decode false 0x04 data = .illegal 0x04) ∧
  (∀ s : State, s.cfg.hasVclr = false →
    exec .vclr s =
      .next { s with errIll := true, responses := s.responses ++ [⟨.illegal, 0, 0, 0, none⟩] }) ∧
  (∀ s t : State, s.inv = true → s.cfg.hasVclr = false → step s = .next t → ¬ s.clearedNext →
    s.vbuf.length ≤ t.vbuf.length ∧
      (s.vbuf.length = s.cfg.nSamples → t.vbuf.length = s.cfg.nSamples))

/-- R134, R135: AVG answers the mean of the held samples as a 32-bit pattern and the fill, and changes
nothing else. -/
def Obligations.AvgReportsTheMean : Prop :=
  ∀ s : State,
    exec .avg s = .next
      { s with responses := s.responses ++
          [⟨.ok,
            BitVec.ofInt 32
              (if s.vbuf.length = 0 then 0
               else ((s.vbuf.map BitVec.toInt).sum).tdiv (s.vbuf.length : Int)),
            BitVec.ofNat 32 s.vbuf.length, 0, none⟩] }

/-- R134: the mean is the exact sum over the number of samples, truncated toward zero: the remainder is
smaller than the number of samples and has the sum's sign. Without a sample it is 0. -/
def Obligations.MeanTruncatesTowardZero : Prop :=
  mean [] = 0 ∧
  ∀ l : List Word, l ≠ [] →
    ∃ r : Int, (l.map BitVec.toInt).sum = mean l * l.length + r ∧ |r| < l.length ∧
      (0 ≤ (l.map BitVec.toInt).sum → 0 ≤ r ∧ 0 ≤ mean l) ∧
      ((l.map BitVec.toInt).sum ≤ 0 → r ≤ 0 ∧ mean l ≤ 0)

/-- R136: a mean lies between the smallest and the largest sample, so its 32-bit pattern stands for it. -/
def Obligations.MeanLiesBetweenTheSamples : Prop :=
  mean [] = 0 ∧
  ∀ l : List Word, l ≠ [] →
    ∃ lo ∈ l, ∃ hi ∈ l, (∀ x ∈ l, lo.toInt ≤ x.toInt ∧ x.toInt ≤ hi.toInt) ∧
      lo.toInt ≤ mean l ∧ mean l ≤ hi.toInt ∧ (BitVec.ofInt 32 (mean l)).toInt = mean l

/-- R137: the order of the samples changes no mean, no response and no frame; it matters only for which
sample FEED evicts. -/
def Obligations.SampleOrderMattersOnlyForEviction : Prop :=
  (∀ l l' : List Word, l.Perm l' → mean l = mean l') ∧
  ∀ (i : Instr) (s : State) (l : List Word), s.vbuf.Perm l →
    ∃ t t', exec i s = .next t ∧ exec i { s with vbuf := l } = .next t' ∧
      t' = { t with vbuf := t'.vbuf } ∧
      ((∀ x, i ≠ .feed x) ∨ s.vbuf.length ≠ s.cfg.nSamples → t.vbuf.Perm t'.vbuf)

/-- R22: `vbuf` changes only in a step that runs FEED or VCLR, or in reset (or power loss, log 5). In a block
without VCLR word 0x04 is neither, and changes nothing of it. -/
def Obligations.OnlyFeedAndVclrWriteTheBuffer : Prop :=
  ∀ s t : State, step s = .next t → t.vbuf ≠ s.vbuf →
    s.clearedNext ∨
      ∃ cmd rest, s.inputs = .command cmd :: rest ∧
        ((∃ x, decode s.cfg.hasVclr cmd.word cmd.data = .feed x) ∨
          decode s.cfg.hasVclr cmd.word cmd.data = .vclr)

/-! ## Frame encoder -/

/-- R170 to R176: under NIBBLE, ENC writes these 12 bytes and `frame_valid`, answers the header and the
frame, and changes nothing else. -/
def Obligations.EncWritesTheNibbleFrame : Prop :=
  ∀ s : State, s.cfg.layout = .nibble →
    ∃ (h : Byte) (f : Frame),
      exec .enc s = .next
        { s with
          frameReg := some f, frameValid := true,
          responses := s.responses ++ [⟨.ok, 0, 0, h, some f⟩] } ∧
      h = (if 255 < s.ovfA.toNat ∨ 255 < s.ovfB.toNat then 0xFF else 0x00) ∧
      f =
        [h,
         BitVec.ofNat 8 (s.ovfA.toNat % 16 * 16 + s.ovfB.toNat % 16),
         BitVec.ofNat 8 s.cntInA.toNat, BitVec.ofNat 8 (s.cntInA.toNat / 2 ^ 8),
         BitVec.ofNat 8 (s.cntInA.toNat / 2 ^ 16), BitVec.ofNat 8 (s.cntInA.toNat / 2 ^ 24),
         BitVec.ofNat 8 s.cntInB.toNat, BitVec.ofNat 8 (s.cntInB.toNat / 2 ^ 8),
         BitVec.ofNat 8 (s.cntInB.toNat / 2 ^ 16), BitVec.ofNat 8 (s.cntInB.toNat / 2 ^ 24),
         BitVec.ofInt 8 (mean s.vbuf), BitVec.ofInt 8 (mean s.vbuf / 256)]

/-- R170, R171, R176, R178, R179: under STRUCT, ENC writes these 12 bytes and `frame_valid`, answers 0
and the frame, and changes nothing else. -/
def Obligations.EncWritesTheStructFrame : Prop :=
  ∀ s : State, s.cfg.layout = .struct →
    ∃ f : Frame,
      exec .enc s = .next
        { s with
          frameReg := some f, frameValid := true,
          responses := s.responses ++ [⟨.ok, 0, 0, 0, some f⟩] } ∧
      f =
        [BitVec.ofNat 8 s.cntInA.toNat, BitVec.ofNat 8 (s.cntInA.toNat / 2 ^ 8),
         BitVec.ofNat 8 (s.cntInA.toNat / 2 ^ 16), BitVec.ofNat 8 (s.cntInA.toNat / 2 ^ 24),
         BitVec.ofNat 8 (min s.ovfA.toNat 255),
         BitVec.ofNat 8 s.cntInB.toNat, BitVec.ofNat 8 (s.cntInB.toNat / 2 ^ 8),
         BitVec.ofNat 8 (s.cntInB.toNat / 2 ^ 16), BitVec.ofNat 8 (s.cntInB.toNat / 2 ^ 24),
         BitVec.ofNat 8 (min s.ovfB.toNat 255),
         BitVec.ofInt 8 (mean s.vbuf), BitVec.ofInt 8 (mean s.vbuf / 256)]

/-- R180: every frame is 12 bytes, and equal snapshots give equal bytes under one layout. -/
def Obligations.FrameIsTwelveBytesOfTheSnapshot : Prop :=
  ∀ s s' : State, s.cfg.layout = s'.cfg.layout → s.ovfA = s'.ovfA → s.ovfB = s'.ovfB →
    s.cntInA = s'.cntInA → s.cntInB = s'.cntInB → mean s.vbuf = mean s'.vbuf →
    ∃ t t' f, exec .enc s = .next t ∧ exec .enc s' = .next t' ∧
      t.frameReg = some f ∧ t'.frameReg = some f ∧ f.length = 12

/-- R58: ENC is idempotent: a second ENC with the same counts writes the same frame, and nothing else. -/
def Obligations.EncTwiceWritesTheSameFrame : Prop :=
  ∀ s : State, ∃ t r, exec .enc s = .next t ∧
    exec .enc t = .next { t with responses := t.responses ++ [r] } ∧ r.frame = t.frameReg

/-- R177: the laws of the NIBBLE layout: nibble truncation, the invisible band 16 to 255, the header's
independence, and the header 0x00 under WRAP8 and SAT8. -/
def Obligations.NibbleLayoutLaws : Prop :=
  (∀ (n : Snapshot) (x : Word), n.ovA.toNat % 16 = x.toNat % 16 → (255 < n.ovA.toNat ↔ 255 < x.toNat) →
    encNibble { n with ovA := x } = encNibble n) ∧
  (∀ (n : Snapshot) (x : Word), n.ovB.toNat % 16 = x.toNat % 16 → (255 < n.ovB.toNat ↔ 255 < x.toNat) →
    encNibble { n with ovB := x } = encNibble n) ∧
  (∀ n : Snapshot, n.ovA.toNat ≤ 255 → n.ovB.toNat ≤ 255 →
    (encNibble n)[0]? = some 0x00 ∧
      (encNibble n)[1]? = some (BitVec.ofNat 8 (n.ovA.toNat % 16 * 16 + n.ovB.toNat % 16))) ∧
  (∀ n : Snapshot, 256 ≤ n.ovA.toNat ∨ 256 ≤ n.ovB.toNat → (encNibble n)[0]? = some 0xFF) ∧
  (∀ s : State, s.inv = true → s.cfg.ovfPolicy ≠ .unboundedSat →
    (encNibble (snapshot s))[0]? = some 0x00)

/-- R272: in every legal configuration, ENC as the first command after a reset, with no FEED before it,
encodes overflow counts 0 and voltage 0, whatever state the reset met. That the configuration is the field
`cfg` and the events come from the field `inputs` is the model's choice (log 1, log 2). -/
def Obligations.EncRightAfterReset : Prop :=
  ∀ (s : State) (d cA cB : Word) (rest : List Event), s.cfg.wf = true →
    s.inputs = .reset :: .command ⟨0x06, d, cA, cB⟩ :: rest →
    ∃ u t, step s = .next u ∧ step u = .next t ∧ t.frameValid = true ∧
      t.frameReg = some
        (match s.cfg.layout with
         | .nibble => [0, 0] ++ le32 cA ++ le32 cB ++ [0, 0]
         | .struct => le32 cA ++ [0] ++ le32 cB ++ [0] ++ [0, 0])

/-- R24: the frame register and its bit change only in a step that runs ENC, or in reset (or power loss,
R251). -/
def Obligations.OnlyEncWritesTheFrame : Prop :=
  ∀ s t : State, step s = .next t → (t.frameReg ≠ s.frameReg ∨ t.frameValid ≠ s.frameValid) →
    s.clearedNext ∨ ∃ cmd rest, s.inputs = .command cmd :: rest ∧ cmd.word = 0x06

/-- R24, R54, R70: while a frame is held, `frame_out` carries frame byte k on bits [8k+7:8k], for a host
that reads it and on the port, and the port `frame_valid` is the bit. While the bit is 0 the spec gives no
value (R24); that reading is then refused, as 93_implementation_defined.md I13 asks, and that the port shows
none, is the model's choice (log 16). -/
def Obligations.FrameOutCarriesTheBytes : Prop :=
  ∀ (s : State) (r : Realisation) (rst : Bool) (b : Block), s.inv = true → b.core = s →
    (outputs r rst b).frameValid = s.frameValid ∧
    (s.frameValid = false → readFrameOut s = .refused .noFrame ∧ (outputs r rst b).frameOut = none) ∧
    (∀ f, s.frameReg = some f →
      ∃ w, readFrameOut s = .next w ∧ (outputs r rst b).frameOut = some w ∧
        ∀ k, k < 12 → f[k]? = some (w.extractLsb' (8 * k) 8))

/-! ## Invariant and whole runs -/

/-- The state after reset meets the invariant, in every legal configuration (R6, R22, R24, R30). -/
def Obligations.ResetMeetsTheInvariant : Prop :=
  State.reset.inv = true ∧
    ∀ cfg : Config, cfg.wf = true → ({ State.reset with cfg := cfg } : State).inv = true

/-- Every step keeps the invariant: the counters fit OVF_WIDTH (R7, R20), the fill is at most N_SAMPLES
(R22), and the frame register holds 12 bytes exactly while it is valid (R24, R180). -/
def Obligations.StepKeepsTheInvariant : Prop :=
  ∀ s t : State, s.inv = true → step s = .next t → t.inv = true

/-- R277, R276, R59, R25: every run, a reset and any finite list of commands in any legal configuration,
ends, with one response to each command, and a fault recorded exactly when a word was illegal. That the
state holds the list of responses is the model's choice (log 4). -/
def Obligations.EveryRunEndsWithOneResponsePerCommand : Prop :=
  ∀ (cfg : Config) (cmds : List Command), cfg.wf = true →
    ∃ t, Host.Core.run Sys2Proof.core cmds.length
          { State.reset with cfg := cfg, inputs := cmds.map .command } = .next t ∧
      t.responses.length = cmds.length ∧ t.inputs = [] ∧ t.inv = true ∧
      (t.noFaultRecorded ↔ ∀ m ∈ cmds, illegalKind cfg.hasVclr m.word = none)

/-! ## The cycle level -/

/-- R71, R59: whatever the latencies, a run of clock cycles is a run of steps over the events it took, in
their order. -/
def Obligations.CyclesRefineSteps : Prop :=
  ∀ (r : Realisation) (ps : List PortsIn) (b b' : Block), b.core.inputs = [] →
    cycles r ps b = .next b' →
    Host.Core.run Sys2Proof.core (transactions r ps b).length
      { b.core with inputs := transactions r ps b } = .next b'.core

/-- R71, R72, R273: after an edge that accepts a command, which answers one response x, `rsp_valid` first
rises LAT cycles later, and in that cycle the ports carry x (its status code, its words and its byte) and
`frame_out` its frame, if it has one. Until then `cmd_ready` stays 0. The host keeps its duty of R10. The
model's own: that the state is written at the accepting edge, read from R71 (log 14), and that the response
ports show none before (log 16). -/
def Obligations.ResponseComesLatCyclesLater : Prop :=
  ∀ (r : Realisation) (p : PortsIn) (b b' : Block) (c : Command), r.Legal →
    taken r p b = some (.command c) → cycle r p b = .next b' →
    ∃ x : Response, b'.core.responses = b.core.responses ++ [x] ∧
      ∀ ps : List PortsIn, (∀ q ∈ ps, q.rst = false) →
        ps.IsChain (fun q q' => q.cmdValid = true → q'.cmdValid = true →
          q'.cmd = q.cmd ∧ q'.cmdData = q.cmdData) →
        ps.length < r.lat b.accepted →
        ∃ b'', cycles r ps b' = .next b'' ∧ b''.core = b'.core ∧
          (ps.length + 1 < r.lat b.accepted →
            (outputs r false b'').rspValid = false ∧ (outputs r false b'').rsp = none ∧
              (outputs r false b'').cmdReady = false) ∧
          (ps.length + 1 = r.lat b.accepted →
            (outputs r false b'').rspValid = true ∧
              (outputs r false b'').rsp =
                some ⟨match x.status with | .ok => 0 | .illegal => 1, x.a, x.b, x.c⟩ ∧
              ∀ f, x.frame = some f → (outputs r false b'').frameOut = some (frameBits f))

/-- R71: a response is valid for one cycle: an edge that accepts no command ends it. The model's own: that
the block is then ready, in this as in every idle cycle (log 21), and that the response ports show none
(log 16). -/
def Obligations.ResponseLastsOneCycle : Prop :=
  ∀ (r : Realisation) (p : PortsIn) (b b' : Block), b.phase = .responding →
    (∀ c, taken r p b ≠ some (.command c)) → cycle r p b = .next b' →
    (outputs r false b').rspValid = false ∧ (outputs r false b').rsp = none ∧
      (outputs r false b').cmdReady = true

/-- R10, I19: a host that presents a command while `cmd_ready` is low and changes its word or its operand by
the next edge, still presenting one, has no move; every other host has one, in a legal block that has been
reset. That a command presented while not ready binds the host up to the next edge, whatever `cmd_ready` is
there, and that it may be withdrawn, is read from R10 (log 22). -/
def Obligations.HostHasAMoveExactlyWhileCommandsAreStable : Prop :=
  ∀ (r : Realisation) (p q : PortsIn) (b b' : Block), cycle r p b = .next b' →
    b'.core.live = true →
    ((∃ b'', cycle r q b' = .next b'') ↔
      (p.cmdValid = true → (outputs r p.rst b).cmdReady = false → q.cmdValid = true →
        q.cmd = p.cmd ∧ q.cmdData = p.cmdData)) ∧
    ((¬ ∃ b'', cycle r q b' = .next b'') → cycle r q b' = .refused .unstableCommand)

/-- R270, R271: while `rst` = 1 the block is not ready and shows no response; an edge with `rst` = 1, of a
host that keeps its duty of R10, sets every state element and drops a command in flight; then the block is
ready. -/
def Obligations.ResetAtTheEdge : Prop :=
  (∀ (r : Realisation) (b : Block),
    (outputs r true b).cmdReady = false ∧ (outputs r true b).rspValid = false) ∧
  ∀ (r : Realisation) (p : PortsIn) (b : Block), b.core.cfg.wf = true → p.rst = true →
    keepsStable p b = true →
    ∃ b', cycle r p b = .next b' ∧ b'.core.cfg = b.core.cfg ∧ (∀ c, b'.core.ovf c = 0) ∧
      b'.core.vbuf = [] ∧ b'.core.frameReg = none ∧ b'.core.frameValid = false ∧
      b'.core.errIll = false ∧ (outputs r false b').cmdReady = true ∧
      (outputs r false b').rspValid = false

/-! ## Around the block -/

/-- R241, R28: reading a status code or a policy code gives back what was coded, and refuses the codes
that are never produced. -/
def Obligations.CodesAreReadBackOrRefused : Prop :=
  (∀ x : Status, Status.ofCode x.code = .next x) ∧
  (∀ k : BitVec 2, 2 ≤ k.toNat → Status.ofCode k = .refused .brokenStatusCode) ∧
  (∀ x : OvfPolicy, policyOfCode (policyCode x) = .next x) ∧
  policyOfCode 3 = .refused .brokenPolicyCode

/-- R79: the assembler refuses exactly the `feed` operands outside its range; a negative operand becomes
its two's complement and one of 2^31 or more its own 32-bit pattern. -/
def Obligations.AssemblerTakesFeedOperandsInRange : Prop :=
  ∀ v : Int,
    (assembleLine (.feed v) = none ↔ v < -2147483648 ∨ 4294967295 < v) ∧
    (∀ cmd data, assembleLine (.feed v) = some (cmd, data) →
      ∀ hv, ∃ x, decode hv cmd data = .feed x ∧
        (v < 2147483648 → sampleMv x = v) ∧ (0 ≤ v → (x.toNat : Int) = v))

/-- R138, R242: the host's commands for driver events: overflow is OVF, a battery update is FEED, any
other battery event is VCLR where the block has it, and no radio or button event reaches the block. -/
def Obligations.HostMapsDriverEvents : Prop :=
  ∀ hv : Bool,
    (∀ c, hostCommand hv (.overflow c) = some (.ovf c)) ∧
    (∀ mv, hostCommand hv (.batteryUpdate mv) = some (.feed mv)) ∧
    hostCommand hv .batteryOther = (if hv then some .vclr else none) ∧
    (∀ e ∈ [DriverEvent.radioFrameStart, .radioFrameDone, .radioError, .buttonHold],
      hostCommand hv e = none) ∧
    (∀ e i, hostCommand hv e = some i → i.wf hv = true)
end

