-- ==== Sys2Proof/Laws/Decode.lean ====
section
/-! SUPPORT. How decoding depends on the data operand (30_encoding.md R74): only word 0x03 reads it. With
these two lemmas a fact about every command word is a fact about 256 words. -/

namespace Sys2Proof

/-- Word 0x03 is FEED of the whole operand. -/
theorem decode_feed (hv : Bool) (data : Word) : decode hv 0x03 data = .feed data := by
  cases hv <;> rfl

/-- Every other word decodes as it does with operand 0. -/
theorem decode_data {cmd : Byte} (h : cmd ≠ 0x03) (hv : Bool) (data : Word) :
    decode hv cmd data = decode hv cmd 0 := by
  have key : ∀ w : Byte, w ≠ 3 → ¬ rsvField w ≠ 0 → ¬ chField w ≠ 0 → opField w ≠ 3 := by decide
  by_cases h3 : opField cmd = 3
  · by_cases hr : rsvField cmd = 0
    · by_cases hc : chField cmd = 0
      · exact absurd h3 (key cmd h (not_not.2 hr) (not_not.2 hc))
      · simp [decode, h3, show ¬ chField cmd = 0#1 from hc]
    · simp [decode, show ¬ rsvField cmd = 0#3 from hr]
  · simp only [decode, if_neg h3]

end Sys2Proof
end

