-- ==== Sys2Proof/Laws/State.lean ====
section
/-! SUPPORT. One lemma per field per update of the state, each true by definition, so that no proof
unfolds a record update. -/

namespace Sys2Proof.Machine

@[simp] theorem setOvf_a_cfg (s : State) (v : Word) : (s.setOvf .a v).cfg = s.cfg := rfl
@[simp] theorem setOvf_a_ovfA (s : State) (v : Word) : (s.setOvf .a v).ovfA = v := rfl
@[simp] theorem setOvf_a_ovfB (s : State) (v : Word) : (s.setOvf .a v).ovfB = s.ovfB := rfl
@[simp] theorem setOvf_a_vbuf (s : State) (v : Word) : (s.setOvf .a v).vbuf = s.vbuf := rfl
@[simp] theorem setOvf_a_frameReg (s : State) (v : Word) : (s.setOvf .a v).frameReg = s.frameReg := rfl
@[simp] theorem setOvf_a_frameValid (s : State) (v : Word) : (s.setOvf .a v).frameValid = s.frameValid := rfl
@[simp] theorem setOvf_a_errIll (s : State) (v : Word) : (s.setOvf .a v).errIll = s.errIll := rfl
@[simp] theorem setOvf_a_live (s : State) (v : Word) : (s.setOvf .a v).live = s.live := rfl
@[simp] theorem setOvf_a_cntInA (s : State) (v : Word) : (s.setOvf .a v).cntInA = s.cntInA := rfl
@[simp] theorem setOvf_a_cntInB (s : State) (v : Word) : (s.setOvf .a v).cntInB = s.cntInB := rfl
@[simp] theorem setOvf_a_inputs (s : State) (v : Word) : (s.setOvf .a v).inputs = s.inputs := rfl
@[simp] theorem setOvf_a_responses (s : State) (v : Word) : (s.setOvf .a v).responses = s.responses := rfl

@[simp] theorem setOvf_b_cfg (s : State) (v : Word) : (s.setOvf .b v).cfg = s.cfg := rfl
@[simp] theorem setOvf_b_ovfA (s : State) (v : Word) : (s.setOvf .b v).ovfA = s.ovfA := rfl
@[simp] theorem setOvf_b_ovfB (s : State) (v : Word) : (s.setOvf .b v).ovfB = v := rfl
@[simp] theorem setOvf_b_vbuf (s : State) (v : Word) : (s.setOvf .b v).vbuf = s.vbuf := rfl
@[simp] theorem setOvf_b_frameReg (s : State) (v : Word) : (s.setOvf .b v).frameReg = s.frameReg := rfl
@[simp] theorem setOvf_b_frameValid (s : State) (v : Word) : (s.setOvf .b v).frameValid = s.frameValid := rfl
@[simp] theorem setOvf_b_errIll (s : State) (v : Word) : (s.setOvf .b v).errIll = s.errIll := rfl
@[simp] theorem setOvf_b_live (s : State) (v : Word) : (s.setOvf .b v).live = s.live := rfl
@[simp] theorem setOvf_b_cntInA (s : State) (v : Word) : (s.setOvf .b v).cntInA = s.cntInA := rfl
@[simp] theorem setOvf_b_cntInB (s : State) (v : Word) : (s.setOvf .b v).cntInB = s.cntInB := rfl
@[simp] theorem setOvf_b_inputs (s : State) (v : Word) : (s.setOvf .b v).inputs = s.inputs := rfl
@[simp] theorem setOvf_b_responses (s : State) (v : Word) : (s.setOvf .b v).responses = s.responses := rfl

@[simp] theorem setOvf_cfg (s : State) (c : Channel) (v : Word) : (s.setOvf c v).cfg = s.cfg := by cases c <;> rfl
@[simp] theorem setOvf_vbuf (s : State) (c : Channel) (v : Word) : (s.setOvf c v).vbuf = s.vbuf := by cases c <;> rfl
@[simp] theorem setOvf_frameReg (s : State) (c : Channel) (v : Word) : (s.setOvf c v).frameReg = s.frameReg := by cases c <;> rfl
@[simp] theorem setOvf_frameValid (s : State) (c : Channel) (v : Word) : (s.setOvf c v).frameValid = s.frameValid := by cases c <;> rfl
@[simp] theorem setOvf_errIll (s : State) (c : Channel) (v : Word) : (s.setOvf c v).errIll = s.errIll := by cases c <;> rfl
@[simp] theorem setOvf_live (s : State) (c : Channel) (v : Word) : (s.setOvf c v).live = s.live := by cases c <;> rfl
@[simp] theorem setOvf_cntInA (s : State) (c : Channel) (v : Word) : (s.setOvf c v).cntInA = s.cntInA := by cases c <;> rfl
@[simp] theorem setOvf_cntInB (s : State) (c : Channel) (v : Word) : (s.setOvf c v).cntInB = s.cntInB := by cases c <;> rfl
@[simp] theorem setOvf_inputs (s : State) (c : Channel) (v : Word) : (s.setOvf c v).inputs = s.inputs := by cases c <;> rfl
@[simp] theorem setOvf_responses (s : State) (c : Channel) (v : Word) : (s.setOvf c v).responses = s.responses := by cases c <;> rfl

@[simp] theorem setVbuf_cfg (s : State) (l : List Word) : (s.setVbuf l).cfg = s.cfg := rfl
@[simp] theorem setVbuf_ovfA (s : State) (l : List Word) : (s.setVbuf l).ovfA = s.ovfA := rfl
@[simp] theorem setVbuf_ovfB (s : State) (l : List Word) : (s.setVbuf l).ovfB = s.ovfB := rfl
@[simp] theorem setVbuf_vbuf (s : State) (l : List Word) : (s.setVbuf l).vbuf = l := rfl
@[simp] theorem setVbuf_frameReg (s : State) (l : List Word) : (s.setVbuf l).frameReg = s.frameReg := rfl
@[simp] theorem setVbuf_frameValid (s : State) (l : List Word) : (s.setVbuf l).frameValid = s.frameValid := rfl
@[simp] theorem setVbuf_errIll (s : State) (l : List Word) : (s.setVbuf l).errIll = s.errIll := rfl
@[simp] theorem setVbuf_live (s : State) (l : List Word) : (s.setVbuf l).live = s.live := rfl
@[simp] theorem setVbuf_cntInA (s : State) (l : List Word) : (s.setVbuf l).cntInA = s.cntInA := rfl
@[simp] theorem setVbuf_cntInB (s : State) (l : List Word) : (s.setVbuf l).cntInB = s.cntInB := rfl
@[simp] theorem setVbuf_inputs (s : State) (l : List Word) : (s.setVbuf l).inputs = s.inputs := rfl
@[simp] theorem setVbuf_responses (s : State) (l : List Word) : (s.setVbuf l).responses = s.responses := rfl

@[simp] theorem setFrame_cfg (s : State) (f : Frame) : (s.setFrame f).cfg = s.cfg := rfl
@[simp] theorem setFrame_ovfA (s : State) (f : Frame) : (s.setFrame f).ovfA = s.ovfA := rfl
@[simp] theorem setFrame_ovfB (s : State) (f : Frame) : (s.setFrame f).ovfB = s.ovfB := rfl
@[simp] theorem setFrame_vbuf (s : State) (f : Frame) : (s.setFrame f).vbuf = s.vbuf := rfl
@[simp] theorem setFrame_frameReg (s : State) (f : Frame) : (s.setFrame f).frameReg = some f := rfl
@[simp] theorem setFrame_frameValid (s : State) (f : Frame) : (s.setFrame f).frameValid = true := rfl
@[simp] theorem setFrame_errIll (s : State) (f : Frame) : (s.setFrame f).errIll = s.errIll := rfl
@[simp] theorem setFrame_live (s : State) (f : Frame) : (s.setFrame f).live = s.live := rfl
@[simp] theorem setFrame_cntInA (s : State) (f : Frame) : (s.setFrame f).cntInA = s.cntInA := rfl
@[simp] theorem setFrame_cntInB (s : State) (f : Frame) : (s.setFrame f).cntInB = s.cntInB := rfl
@[simp] theorem setFrame_inputs (s : State) (f : Frame) : (s.setFrame f).inputs = s.inputs := rfl
@[simp] theorem setFrame_responses (s : State) (f : Frame) : (s.setFrame f).responses = s.responses := rfl

@[simp] theorem setErrIll_cfg (s : State) : (s.setErrIll).cfg = s.cfg := rfl
@[simp] theorem setErrIll_ovfA (s : State) : (s.setErrIll).ovfA = s.ovfA := rfl
@[simp] theorem setErrIll_ovfB (s : State) : (s.setErrIll).ovfB = s.ovfB := rfl
@[simp] theorem setErrIll_vbuf (s : State) : (s.setErrIll).vbuf = s.vbuf := rfl
@[simp] theorem setErrIll_frameReg (s : State) : (s.setErrIll).frameReg = s.frameReg := rfl
@[simp] theorem setErrIll_frameValid (s : State) : (s.setErrIll).frameValid = s.frameValid := rfl
@[simp] theorem setErrIll_errIll (s : State) : (s.setErrIll).errIll = true := rfl
@[simp] theorem setErrIll_live (s : State) : (s.setErrIll).live = s.live := rfl
@[simp] theorem setErrIll_cntInA (s : State) : (s.setErrIll).cntInA = s.cntInA := rfl
@[simp] theorem setErrIll_cntInB (s : State) : (s.setErrIll).cntInB = s.cntInB := rfl
@[simp] theorem setErrIll_inputs (s : State) : (s.setErrIll).inputs = s.inputs := rfl
@[simp] theorem setErrIll_responses (s : State) : (s.setErrIll).responses = s.responses := rfl

@[simp] theorem pushResponse_cfg (s : State) (r : Response) : (s.pushResponse r).cfg = s.cfg := rfl
@[simp] theorem pushResponse_ovfA (s : State) (r : Response) : (s.pushResponse r).ovfA = s.ovfA := rfl
@[simp] theorem pushResponse_ovfB (s : State) (r : Response) : (s.pushResponse r).ovfB = s.ovfB := rfl
@[simp] theorem pushResponse_vbuf (s : State) (r : Response) : (s.pushResponse r).vbuf = s.vbuf := rfl
@[simp] theorem pushResponse_frameReg (s : State) (r : Response) : (s.pushResponse r).frameReg = s.frameReg := rfl
@[simp] theorem pushResponse_frameValid (s : State) (r : Response) : (s.pushResponse r).frameValid = s.frameValid := rfl
@[simp] theorem pushResponse_errIll (s : State) (r : Response) : (s.pushResponse r).errIll = s.errIll := rfl
@[simp] theorem pushResponse_live (s : State) (r : Response) : (s.pushResponse r).live = s.live := rfl
@[simp] theorem pushResponse_cntInA (s : State) (r : Response) : (s.pushResponse r).cntInA = s.cntInA := rfl
@[simp] theorem pushResponse_cntInB (s : State) (r : Response) : (s.pushResponse r).cntInB = s.cntInB := rfl
@[simp] theorem pushResponse_inputs (s : State) (r : Response) : (s.pushResponse r).inputs = s.inputs := rfl
@[simp] theorem pushResponse_responses (s : State) (r : Response) : (s.pushResponse r).responses = s.responses ++ [r] := rfl

@[simp] theorem sampleCounts_cfg (s : State) (x y : Word) : (s.sampleCounts x y).cfg = s.cfg := rfl
@[simp] theorem sampleCounts_ovfA (s : State) (x y : Word) : (s.sampleCounts x y).ovfA = s.ovfA := rfl
@[simp] theorem sampleCounts_ovfB (s : State) (x y : Word) : (s.sampleCounts x y).ovfB = s.ovfB := rfl
@[simp] theorem sampleCounts_vbuf (s : State) (x y : Word) : (s.sampleCounts x y).vbuf = s.vbuf := rfl
@[simp] theorem sampleCounts_frameReg (s : State) (x y : Word) : (s.sampleCounts x y).frameReg = s.frameReg := rfl
@[simp] theorem sampleCounts_frameValid (s : State) (x y : Word) : (s.sampleCounts x y).frameValid = s.frameValid := rfl
@[simp] theorem sampleCounts_errIll (s : State) (x y : Word) : (s.sampleCounts x y).errIll = s.errIll := rfl
@[simp] theorem sampleCounts_live (s : State) (x y : Word) : (s.sampleCounts x y).live = s.live := rfl
@[simp] theorem sampleCounts_cntInA (s : State) (x y : Word) : (s.sampleCounts x y).cntInA = x := rfl
@[simp] theorem sampleCounts_cntInB (s : State) (x y : Word) : (s.sampleCounts x y).cntInB = y := rfl
@[simp] theorem sampleCounts_inputs (s : State) (x y : Word) : (s.sampleCounts x y).inputs = s.inputs := rfl
@[simp] theorem sampleCounts_responses (s : State) (x y : Word) : (s.sampleCounts x y).responses = s.responses := rfl

@[simp] theorem applyReset_cfg (s : State) : (applyReset s).cfg = s.cfg := rfl
@[simp] theorem applyReset_ovfA (s : State) : (applyReset s).ovfA = 0 := rfl
@[simp] theorem applyReset_ovfB (s : State) : (applyReset s).ovfB = 0 := rfl
@[simp] theorem applyReset_vbuf (s : State) : (applyReset s).vbuf = [] := rfl
@[simp] theorem applyReset_frameReg (s : State) : (applyReset s).frameReg = none := rfl
@[simp] theorem applyReset_frameValid (s : State) : (applyReset s).frameValid = false := rfl
@[simp] theorem applyReset_errIll (s : State) : (applyReset s).errIll = false := rfl
@[simp] theorem applyReset_live (s : State) : (applyReset s).live = true := rfl
@[simp] theorem applyReset_cntInA (s : State) : (applyReset s).cntInA = s.cntInA := rfl
@[simp] theorem applyReset_cntInB (s : State) : (applyReset s).cntInB = s.cntInB := rfl
@[simp] theorem applyReset_inputs (s : State) : (applyReset s).inputs = s.inputs := rfl
@[simp] theorem applyReset_responses (s : State) : (applyReset s).responses = [] := rfl

@[simp] theorem losePower_cfg (s : State) : (losePower s).cfg = s.cfg := rfl
@[simp] theorem losePower_ovfA (s : State) : (losePower s).ovfA = 0 := rfl
@[simp] theorem losePower_ovfB (s : State) : (losePower s).ovfB = 0 := rfl
@[simp] theorem losePower_vbuf (s : State) : (losePower s).vbuf = [] := rfl
@[simp] theorem losePower_frameReg (s : State) : (losePower s).frameReg = none := rfl
@[simp] theorem losePower_frameValid (s : State) : (losePower s).frameValid = false := rfl
@[simp] theorem losePower_errIll (s : State) : (losePower s).errIll = false := rfl
@[simp] theorem losePower_live (s : State) : (losePower s).live = false := rfl
@[simp] theorem losePower_cntInA (s : State) : (losePower s).cntInA = s.cntInA := rfl
@[simp] theorem losePower_cntInB (s : State) : (losePower s).cntInB = s.cntInB := rfl
@[simp] theorem losePower_inputs (s : State) : (losePower s).inputs = s.inputs := rfl
@[simp] theorem losePower_responses (s : State) : (losePower s).responses = [] := rfl

@[simp] theorem accept_cfg (s : State) (c : Command) (rest : List Event) : (accept s c rest).cfg = s.cfg := rfl
@[simp] theorem accept_ovfA (s : State) (c : Command) (rest : List Event) : (accept s c rest).ovfA = s.ovfA := rfl
@[simp] theorem accept_ovfB (s : State) (c : Command) (rest : List Event) : (accept s c rest).ovfB = s.ovfB := rfl
@[simp] theorem accept_vbuf (s : State) (c : Command) (rest : List Event) : (accept s c rest).vbuf = s.vbuf := rfl
@[simp] theorem accept_frameReg (s : State) (c : Command) (rest : List Event) : (accept s c rest).frameReg = s.frameReg := rfl
@[simp] theorem accept_frameValid (s : State) (c : Command) (rest : List Event) : (accept s c rest).frameValid = s.frameValid := rfl
@[simp] theorem accept_errIll (s : State) (c : Command) (rest : List Event) : (accept s c rest).errIll = s.errIll := rfl
@[simp] theorem accept_live (s : State) (c : Command) (rest : List Event) : (accept s c rest).live = s.live := rfl
@[simp] theorem accept_cntInA (s : State) (c : Command) (rest : List Event) : (accept s c rest).cntInA = c.drawA := rfl
@[simp] theorem accept_cntInB (s : State) (c : Command) (rest : List Event) : (accept s c rest).cntInB = c.drawB := rfl
@[simp] theorem accept_inputs (s : State) (c : Command) (rest : List Event) : (accept s c rest).inputs = rest := rfl
@[simp] theorem accept_responses (s : State) (c : Command) (rest : List Event) : (accept s c rest).responses = s.responses := rfl

/-! The reads of a channel, after each update. -/

@[simp] theorem ovf_a (s : State) : s.ovf .a = s.ovfA := rfl
@[simp] theorem ovf_b (s : State) : s.ovf .b = s.ovfB := rfl
@[simp] theorem draw_a (s : State) : s.draw .a = s.cntInA := rfl
@[simp] theorem draw_b (s : State) : s.draw .b = s.cntInB := rfl

/-- A counter just written reads back as written. -/
@[simp] theorem setOvf_ovf (s : State) (c : Channel) (v : Word) : (s.setOvf c v).ovf c = v := by
  cases c <;> rfl

/-- Writing one channel's counter leaves the other's (R105). -/
theorem setOvf_ovf_of_ne (s : State) {c d : Channel} (h : d ≠ c) (v : Word) :
    (s.setOvf c v).ovf d = s.ovf d := by
  cases c <;> cases d <;> first | rfl | exact absurd rfl h

@[simp] theorem setVbuf_ovf (s : State) (l : List Word) (d : Channel) : (s.setVbuf l).ovf d = s.ovf d := by cases d <;> rfl
@[simp] theorem setFrame_ovf (s : State) (f : Frame) (d : Channel) : (s.setFrame f).ovf d = s.ovf d := by cases d <;> rfl
@[simp] theorem setErrIll_ovf (s : State) (d : Channel) : (s.setErrIll).ovf d = s.ovf d := by cases d <;> rfl
@[simp] theorem pushResponse_ovf (s : State) (r : Response) (d : Channel) : (s.pushResponse r).ovf d = s.ovf d := by cases d <;> rfl
@[simp] theorem sampleCounts_ovf (s : State) (x y : Word) (d : Channel) : (s.sampleCounts x y).ovf d = s.ovf d := by cases d <;> rfl
@[simp] theorem accept_ovf (s : State) (c : Command) (rest : List Event) (d : Channel) : (accept s c rest).ovf d = s.ovf d := by cases d <;> rfl
@[simp] theorem applyReset_ovf (s : State) (d : Channel) : (applyReset s).ovf d = 0 := by cases d <;> rfl
@[simp] theorem losePower_ovf (s : State) (d : Channel) : (losePower s).ovf d = 0 := by cases d <;> rfl

end Sys2Proof.Machine
end

