-- ==== Sys2Proof/Laws/Ops.lean ====
section
/-! SUPPORT. One lemma per shared operation: what it does, said once, for proofs to cite. -/

namespace Sys2Proof.Machine

/-! ## Responding -/

/-- Responding always completes, and only appends the response. -/
theorem respond_eq (r : Response) (s : State) : respond r s = .next (s.pushResponse r) := rfl

/-- An OK response completes. -/
theorem respondOk_eq (a b : Word) (c : Byte) (s : State) :
    respondOk a b c s = .next (s.pushResponse ⟨.ok, a, b, c, none⟩) := rfl

/-- An illegal command sets `err_ill` and answers ILLEGAL (R223). -/
theorem raiseIllegal_eq (s : State) :
    raiseIllegal s = .next (s.setErrIll.pushResponse ⟨.illegal, 0, 0, 0, none⟩) := rfl

/-! ## The increment (R100) -/

/-- The largest counter of a legal configuration fits 32 bits, and 255 is within it. -/
theorem ovfMax_bounds {cfg : Config} (h : cfg.wf = true) : 255 ≤ cfg.ovfMax ∧ cfg.ovfMax < 2 ^ 32 := by
  simp only [Config.wf, Bool.and_eq_true, decide_eq_true_eq] at h
  have lo : 2 ^ 9 ≤ 2 ^ cfg.ovfW := Nat.pow_le_pow_right (by decide) h.1.2
  have hi : 2 ^ cfg.ovfW ≤ 2 ^ 32 := Nat.pow_le_pow_right (by decide) h.2
  unfold Config.ovfMax Config.ovfWidth
  cases cfg.ovfPolicy
  · simp
    omega
  · simp
  · simp

/-- What the increment does, as a number, under each policy. -/
theorem inc_toNat {cfg : Config} (h : cfg.wf = true) (x : Word) :
    (inc cfg x).toNat =
      match cfg.ovfPolicy with
      | .unboundedSat => if x.toNat < cfg.ovfMax then x.toNat + 1 else x.toNat
      | .wrap8 => (x.toNat + 1) % 256
      | .sat8 => if x.toNat < 255 then x.toNat + 1 else 255 := by
  have hm := (ovfMax_bounds h).2
  unfold inc
  cases cfg.ovfPolicy <;> simp only
  · split
    · rw [BitVec.toNat_add]; simp; omega
    · rfl
  · rw [BitVec.toNat_ofNat]; omega
  · split
    · rw [BitVec.toNat_add]; simp; omega
    · rfl

/-- The increment keeps a counter within its width (R7). -/
theorem inc_le_ovfMax {cfg : Config} (h : cfg.wf = true) {x : Word} (hx : x.toNat ≤ cfg.ovfMax) :
    (inc cfg x).toNat ≤ cfg.ovfMax := by
  have hb := (ovfMax_bounds h).1
  rw [inc_toNat h]
  cases cfg.ovfPolicy <;> simp only
  · split <;> omega
  · omega
  · split <;> omega

/-! ## The sample buffer (R130) -/

/-- An append grows the buffer by one, or leaves a full one full. -/
theorem appendSample_length {n : Nat} (hn : 1 ≤ n) (l : List Word) (x : Word) :
    (appendSample n l x).length = if l.length = n then n else l.length + 1 := by
  unfold appendSample
  split
  · simp; omega
  · simp

/-- An append keeps the fill within the capacity (R22). -/
theorem appendSample_length_le {n : Nat} (hn : 1 ≤ n) {l : List Word} (hl : l.length ≤ n) (x : Word) :
    (appendSample n l x).length ≤ n := by
  rw [appendSample_length hn]
  split <;> omega

/-! ## Frames -/

@[simp] theorem le16_length (v : BitVec 16) : (le16 v).length = 2 := rfl
@[simp] theorem le32_length (v : Word) : (le32 v).length = 4 := rfl

/-- Both layouts write 12 bytes. -/
theorem encodeFrame_length (l : Layout) (n : Snapshot) : (encodeFrame l n).length = 12 := by
  cases l <;> rfl

/-! ## The saturating view and the header -/

/-- The 8-bit view of a counter, as a number (R102). -/
theorem sat8_toNat (x : Word) : (sat8 x).toNat = min x.toNat 255 := by
  unfold sat8
  rw [BitVec.toNat_ofNat]
  omega

/-- The header is HDR_ERR exactly when a counter exceeds 255 (R173). -/
theorem hdr_eq_err_iff (x y : Word) : hdr x y = 0xFF ↔ 255 < x.toNat ∨ 255 < y.toNat := by
  unfold hdr
  split <;> simp_all

/-! ## Byte order and packing, as numbers -/

/-- The bytes of LE32 (R12). -/
theorem le32_eq_ofNat (v : Word) :
    le32 v = [BitVec.ofNat 8 v.toNat, BitVec.ofNat 8 (v.toNat / 2 ^ 8),
      BitVec.ofNat 8 (v.toNat / 2 ^ 16), BitVec.ofNat 8 (v.toNat / 2 ^ 24)] := by
  unfold le32
  simp only [List.cons.injEq, and_true]
  refine ⟨?_, ?_, ?_, ?_⟩ <;> apply BitVec.eq_of_toNat_eq <;> simp [Nat.shiftRight_eq_div_pow]

/-- The two bytes of the voltage field (R176). -/
theorem le16_trunc16 (v : Int) : le16 (trunc16 v) = [BitVec.ofInt 8 v, BitVec.ofInt 8 (v / 256)] := by
  unfold le16 trunc16
  simp only [List.cons.injEq, and_true]
  refine ⟨?_, ?_⟩ <;> apply BitVec.eq_of_toNat_eq <;>
    simp [BitVec.toNat_ofInt, Nat.shiftRight_eq_div_pow] <;> omega

/-- The overflow byte of a NIBBLE frame (R174). -/
theorem ovbyte_eq_ofNat (x y : Word) :
    ovbyte x y = BitVec.ofNat 8 (x.toNat % 16 * 16 + y.toNat % 16) := by
  have pack : ∀ u v : BitVec 4, ((u.setWidth 8 <<< 4) ||| v.setWidth 8 : BitVec 8)
      = BitVec.ofNat 8 (u.toNat * 16 + v.toNat) := by decide
  have low : ∀ z : Word, (z &&& 0xF).setWidth 8 = ((z.setWidth 4).setWidth 8 : BitVec 8) := by
    intro z
    apply BitVec.eq_of_getLsbD_eq
    intro i hi
    interval_cases i <;> simp
  unfold ovbyte
  rw [low, low, pack]
  simp

/-! ## The mean (R134) -/

/-- The sum is the mean times the number of samples and a remainder, of a division toward zero. -/
theorem sampleSum_eq (l : List Word) (h : l ≠ []) :
    sampleSum l = mean l * l.length + (sampleSum l).tmod l.length := by
  have hn : l.length ≠ 0 := by simpa using h
  rw [mean, if_neg hn, mul_comm]
  exact (Int.mul_tdiv_add_tmod (sampleSum l) l.length).symm

/-! ## Fetching -/

/-- What a fetch can give: an idle state, a state cleared by reset or power loss, a command to run, or a
refusal the spec asks for. -/
theorem fetch_cases (s : State) :
    (s.cfg.wf = false ∧ fetch s = .refuse .illFormedConfig) ∨
    (s.cfg.wf = true ∧
      ((s.inputs = [] ∧ fetch s = .moved s) ∨
       (∃ rest, s.inputs = .reset :: rest ∧ fetch s = .moved (applyReset { s with inputs := rest })) ∨
       (∃ rest, s.inputs = .powerLoss :: rest ∧ fetch s = .moved (losePower { s with inputs := rest })) ∨
       (∃ c rest, s.inputs = .command c :: rest ∧ s.live = false ∧
          fetch s = .refuse .commandBeforeReset) ∨
       (∃ c rest, s.inputs = .command c :: rest ∧ s.live = true ∧
          fetch s = .run (decode s.cfg.hasVclr c.word c.data) (accept s c rest)))) := by
  unfold fetch
  cases hw : s.cfg.wf
  · simp
  · rcases hi : s.inputs with _ | ⟨e, rest⟩
    · simp
    · cases e
      · cases s.live <;> simp
      · simp
      · simp

end Sys2Proof.Machine
end

