-- ==== Sys2Proof/Laws/PerInstr.lean ====
section
/-! SUPPORT. The family FormatC, one lemma per command: the word of every command but an illegal one has
its reserved bits 0 and its channel bit 0 unless it names a channel (30_encoding.md R73). -/

namespace Sys2Proof.Laws.FormatC

/-- Format C as R73 has it, for one command's own word. -/
def Statement (i : Instr) : Prop :=
  (∃ w, i = .illegal w) ∨
    (rsvField (encodeWord i) = 0 ∧
      (chField (encodeWord i) = 0 ∨ ∃ c, i = .ovf c ∨ i = .rdch c))

theorem nop : Statement .nop := .inr ⟨by decide, .inl (by decide)⟩

theorem ovf (c : Channel) : Statement (.ovf c) := .inr ⟨by cases c <;> decide, .inr ⟨c, .inl rfl⟩⟩

theorem rdch (c : Channel) : Statement (.rdch c) := .inr ⟨by cases c <;> decide, .inr ⟨c, .inr rfl⟩⟩

theorem feed (sample : Word) : Statement (.feed sample) := .inr ⟨(by decide : rsvField (formatC 0 3) = 0), .inl (by decide : chField (formatC 0 3) = 0)⟩

theorem vclr : Statement .vclr := .inr ⟨by decide, .inl (by decide)⟩

theorem avg : Statement .avg := .inr ⟨by decide, .inl (by decide)⟩

theorem enc : Statement .enc := .inr ⟨by decide, .inl (by decide)⟩

theorem stat : Statement .stat := .inr ⟨by decide, .inl (by decide)⟩

theorem illegal (word : Byte) : Statement (.illegal word) := .inl ⟨word, rfl⟩

end Sys2Proof.Laws.FormatC
end

