-- ==== Sys2Proof/Laws/Step.lean ====
section
/-! SUPPORT. What a command and a step can do, said once: the effect of each command as a plain function
of the state, and the inversion of a step. -/

namespace Sys2Proof.Machine

/-- The next state of each command, without the response. -/
def effect (i : Instr) (s : State) : State :=
  match i with
  | .nop => s
  | .ovf c => s.setOvf c (inc s.cfg (s.ovf c))
  | .rdch _ => s
  | .feed x => s.setVbuf (appendSample s.cfg.nSamples s.vbuf x)
  | .vclr => if s.cfg.hasVclr then s.setVbuf [] else s.setErrIll
  | .avg => s
  | .enc => s.setFrame (encodeFrame s.cfg.layout (snapshot s))
  | .stat => s
  | .illegal _ => s.setErrIll

/-- A command appends one response to its effect. -/
theorem exec_eq (i : Instr) (s : State) : ∃ r, exec i s = .next ((effect i s).pushResponse r) := by
  cases i <;> try exact ⟨_, rfl⟩
  show ∃ r, execVclr s = .next ((if s.cfg.hasVclr then s.setVbuf [] else s.setErrIll).pushResponse r)
  unfold execVclr
  split
  · exact ⟨_, rfl⟩
  · exact ⟨_, rfl⟩

/-- No command touches the configuration, the counts, the host's list, or the mark of a reset. -/
theorem effect_frame (i : Instr) (s : State) :
    (effect i s).cfg = s.cfg ∧ (effect i s).cntInA = s.cntInA ∧ (effect i s).cntInB = s.cntInB ∧
      (effect i s).inputs = s.inputs ∧ (effect i s).live = s.live ∧
      (effect i s).responses = s.responses := by
  cases i <;> simp [effect]
  split <;> simp

/-- What a command does to a counter (R101, R105). -/
theorem effect_ovf (i : Instr) (s : State) (c : Channel) :
    (effect i s).ovf c = if i = .ovf c then inc s.cfg (s.ovf c) else s.ovf c := by
  cases i <;> try simp [effect]
  · rename_i d
    by_cases h : d = c
    · subst h; simp
    · simp [h]; exact setOvf_ovf_of_ne s (Ne.symm h) _
  · split <;> simp

/-- A step that answers a next state was idle, a reset, a power loss, or a command run whole. -/
theorem step_cases {s t : State} (h : step s = .next t) :
    s.cfg.wf = true ∧
    ((s.inputs = [] ∧ t = s) ∨
     (∃ rest, s.inputs = .reset :: rest ∧ t = applyReset { s with inputs := rest }) ∨
     (∃ rest, s.inputs = .powerLoss :: rest ∧ t = losePower { s with inputs := rest }) ∨
     (∃ c rest r, s.inputs = .command c :: rest ∧ s.live = true ∧
        t = (effect (decode s.cfg.hasVclr c.word c.data) (accept s c rest)).pushResponse r)) := by
  unfold step at h
  rcases fetch_cases s with ⟨-, hf⟩ | ⟨hw, hf⟩
  · simp [hf] at h
  · refine ⟨hw, ?_⟩
    rcases hf with ⟨hi, hf⟩ | ⟨rest, hi, hf⟩ | ⟨rest, hi, hf⟩ | ⟨c, rest, hi, -, hf⟩ | ⟨c, rest, hi, hl, hf⟩
    · rw [hf] at h; cases h; exact .inl ⟨hi, rfl⟩
    · rw [hf] at h; cases h; exact .inr (.inl ⟨rest, hi, rfl⟩)
    · rw [hf] at h; cases h; exact .inr (.inr (.inl ⟨rest, hi, rfl⟩))
    · simp [hf] at h
    · obtain ⟨r, hr⟩ := exec_eq (decode s.cfg.hasVclr c.word c.data) (accept s c rest)
      rw [hf] at h
      simp only [hr] at h
      cases h
      exact .inr (.inr (.inr ⟨c, rest, r, hi, hl, rfl⟩))

/-- A command next, in a legal block that has been reset, is run. -/
theorem step_command {s : State} {c : Command} {rest : List Event} (hw : s.cfg.wf = true)
    (hl : s.live = true) (hi : s.inputs = .command c :: rest) :
    ∃ r, step s =
      .next ((effect (decode s.cfg.hasVclr c.word c.data) (accept s c rest)).pushResponse r) := by
  obtain ⟨r, hr⟩ := exec_eq (decode s.cfg.hasVclr c.word c.data) (accept s c rest)
  refine ⟨r, ?_⟩
  simp [step, fetch, hw, hl, hi, hr]

/-- A step takes the next event from the host's list. -/
theorem step_inputs {s t : State} (h : step s = .next t) : t.inputs = s.inputs.tail := by
  rcases (step_cases h).2 with ⟨hi, rfl⟩ | ⟨rest, hi, rfl⟩ | ⟨rest, hi, rfl⟩ | ⟨c, rest, r, hi, -, rfl⟩ <;>
    simp [hi, effect_frame]

/-- A run whose first step answers a next state goes on from there. -/
theorem run_succ {s t : State} (h : step s = .next t) (n : Nat) :
    Host.Core.run Sys2Proof.core (n + 1) s = Host.Core.run Sys2Proof.core n t := by
  simp only [Host.Core.run]
  rw [show Sys2Proof.core.step s = .next _ from h]

/-- What a clock cycle that completes did: the host kept its duty, the step on the event taken was run, and
the handshake went on. -/
theorem cycle_next {r : Realisation} {p : PortsIn} {b b' : Block} (h : cycle r p b = .next b') :
    keepsStable p b = true ∧
      step { b.core with inputs := (taken r p b).toList } = .next b'.core ∧
      b'.phase = nextPhase r b (taken r p b) ∧ b'.accepted = nextAccepted b (taken r p b) ∧
      b'.waiting = nextWaiting r p b := by
  unfold cycle at h
  split at h
  · rename_i hs
    split at h
    · rename_i t ht
      cases h
      exact ⟨hs, ht, rfl, rfl, rfl⟩
    · cases h
    · cases h
  · cases h

/-- A clock cycle of a host that keeps its duty completes when its step does. -/
theorem cycle_of_step {r : Realisation} {p : PortsIn} {b : Block} {t : State}
    (hk : keepsStable p b = true)
    (hs : step { b.core with inputs := (taken r p b).toList } = .next t) :
    cycle r p b = .next ⟨t, nextPhase r b (taken r p b), nextAccepted b (taken r p b), nextWaiting r p b⟩ := by
  unfold cycle
  rw [if_pos hk, hs]

end Sys2Proof.Machine
end

