-- ==== Sys2Proof/Tests/Slice0.lean ====
section
/-! SUPPORT. Tests. Expected values are the spec's: its examples (rules R101 to R223) and the vectors of
95_test_vectors.md, named in each comment, or hand calculation from a rule. After them, one witness for
the hypotheses of every statement that has some. -/

namespace Sys2Proof.Tests

open Sys2Proof Sys2Proof.Machine

/-- A block after reset, with these counters and samples. -/
def blk (cfg : Config) (ovA ovB : Word) (l : List Word) : State :=
  { State.reset with cfg := cfg, ovfA := ovA, ovfB := ovB, vbuf := l }

/-- The next state of an outcome, or the state after reset. -/
def nextOf (o : Host.Outcome State Fault Refusal) : State :=
  match o with
  | .next t => t
  | .fault _ => State.reset
  | .refused _ => State.reset

/-- The last response of a state. -/
def lastRsp (s : State) : Option Response := s.responses.getLast?

/-- The default configuration under another policy. -/
def withPolicy (p : OvfPolicy) : Config := { Config.default with ovfPolicy := p }

/-- The configuration of vector K3. -/
def cfgK3 : Config := { nSamples := 1, ovfPolicy := .wrap8, ovfW := 32, layout := .struct, hasVclr := false }

/-- A state with a command next. -/
def given (s : State) (word : Byte) (data : Word) : State := { s with inputs := [.command ⟨word, data, 7, 9⟩] }

/-! ## WellFormed and Config: each check refuses an ill-formed term -/

theorem test_wf_vclr_absent : Instr.wf false .vclr = false := by decide
theorem test_wf_vclr_present : Instr.wf true .vclr = true := by decide
theorem test_wf_illegal_on_legal_word : Instr.wf true (.illegal 0x11) = false := by decide
theorem test_wf_illegal_04_with_vclr : Instr.wf true (.illegal 0x04) = false := by decide
theorem test_wf_illegal_04_without_vclr : illegalKind false 0x04 = some .vclrAbsent := by decide
theorem test_kind_reserved_bits : illegalKind true 0x20 = some .reservedBits := by decide
theorem test_kind_reserved_opcode : illegalKind true 0x18 = some .reservedOpcode := by decide
theorem test_kind_channel_misuse : illegalKind true 0x17 = some .channelMisuse := by decide
theorem test_cfg_default_wf : Config.default.wf = true := by decide
theorem test_cfg_no_samples : ({ Config.default with nSamples := 0 } : Config).wf = false := by decide
theorem test_cfg_256_samples : ({ Config.default with nSamples := 256 } : Config).wf = false := by decide
theorem test_cfg_width_8 : ({ Config.default with ovfW := 8 } : Config).wf = false := by decide
theorem test_cfg_width_33 : ({ Config.default with ovfW := 33 } : Config).wf = false := by decide

/-! ## Decode: each constructor from a word written out from R73 and R75 (rsv, ch, op) -/

theorem test_decode_nop : decode true 0b000_0_0000 5 = .nop := by decide
theorem test_decode_ovf_a : decode true 0b000_0_0001 5 = .ovf .a := by decide
theorem test_decode_ovf_b : decode true 0b000_1_0001 5 = .ovf .b := by decide
theorem test_decode_rdch_a : decode true 0b000_0_0010 5 = .rdch .a := by decide
theorem test_decode_rdch_b : decode true 0b000_1_0010 5 = .rdch .b := by decide
theorem test_decode_feed : decode true 0b000_0_0011 0xFFFFFFFB = .feed 0xFFFFFFFB := by decide
theorem test_decode_vclr : decode true 0b000_0_0100 5 = .vclr := by decide
theorem test_decode_vclr_absent : decode false 0b000_0_0100 5 = .illegal 0x04 := by decide
theorem test_decode_avg : decode true 0b000_0_0101 5 = .avg := by decide
theorem test_decode_enc : decode true 0b000_0_0110 5 = .enc := by decide
theorem test_decode_stat : decode true 0b000_0_0111 5 = .stat := by decide
/-- The words of vector K5. -/
theorem test_decode_illegal_k5 :
    ∀ w ∈ [0x08, 0x0F, 0x10, 0x13, 0x16, 0x17, 0x20, 0xE1, 0xFF], decode true w 0 = .illegal w := by decide
theorem test_table_word_feed : decodeTableWord 40 0x00000CE403 = some (.feed 3300) := by decide
/-- Bits from nbits up are 0. -/
theorem test_table_word_short : decodeTableWord 8 0xFFFFFF03 = some (.feed 0) := by decide

/-! ## One step of each command -/

/-- R220's example, K1. -/
theorem test_nop : nextOf (step (given State.reset 0x00 1)) =
    { State.reset with cntInA := 7, cntInB := 9, responses := [⟨.ok, 0, 0, 0, none⟩] } := by decide
/-- R101's example: WRAP8, 255 becomes 0, and channel B is untouched. -/
theorem test_ovf_wrap8 :
    (nextOf (step (given (blk (withPolicy .wrap8) 255 3 []) 0x01 0))).ovfA = 0 ∧
    (nextOf (step (given (blk (withPolicy .wrap8) 255 3 []) 0x01 0))).ovfB = 3 := by decide
/-- A2b: OVF_W = 9 saturates at 511; SAT8 stays at 255 (R101). -/
theorem test_ovf_saturates :
    (nextOf (step (given (blk { Config.default with ovfW := 9 } 511 0 []) 0x01 0))).ovfA = 511 ∧
    (nextOf (step (given (blk (withPolicy .sat8) 0 255 []) 0x11 0))).ovfB = 255 := by decide
/-- R103's example with the draws 7 and 9: the draw of B, 300, 255. -/
theorem test_rdch_b : lastRsp (nextOf (step (given (blk .default 0 300 []) 0x12 0))) =
    some ⟨.ok, 9, 300, 255, none⟩ := by decide
/-- A5: a count passes through unchanged. -/
theorem test_rdch_a :
    lastRsp (nextOf (step { State.reset with inputs := [.command ⟨0x02, 0, 0xFFFFFFFF, 0⟩] })) =
      some ⟨.ok, 0xFFFFFFFF, 0, 0, none⟩ := by decide
/-- R130's example. -/
theorem test_feed_evicts :
    (nextOf (step (given (blk .default 0 0 [1, 2, 3, 4, 5, 6]) 0x03 7))).vbuf = [2, 3, 4, 5, 6, 7] := by decide
/-- B10: N_SAMPLES = 1. -/
theorem test_feed_one : (nextOf (step (given (blk cfgK3 0 0 [10]) 0x03 20))).vbuf = [20] := by decide
/-- R132's example. -/
theorem test_vclr : (nextOf (step (given (blk .default 0 0 [3300, 3290]) 0x04 0))).vbuf = [] := by decide
/-- K4: word 0x04 without VCLR. -/
theorem test_vclr_absent :
    lastRsp (nextOf (step (given (blk cfgK3 0 0 [1]) 0x04 0))) = some ⟨.illegal, 0, 0, 0, none⟩ ∧
    (nextOf (step (given (blk cfgK3 0 0 [1]) 0x04 0))).vbuf = [1] := by decide
/-- B4: -3 and -4 average to -3. -/
theorem test_avg_negative : lastRsp (nextOf (step (given (blk .default 0 0 [0xFFFFFFFD, 0xFFFFFFFC]) 0x05 0))) =
    some ⟨.ok, 0xFFFFFFFD, 2, 0, none⟩ := by decide
/-- B5: the sum does not wrap. -/
theorem test_avg_no_wrap : lastRsp (nextOf (step (given (blk .default 0 0 [0x7FFFFFFF, 0x7FFFFFFF]) 0x05 0))) =
    some ⟨.ok, 0x7FFFFFFF, 2, 0, none⟩ := by decide
/-- V1, E1: the source's literal frame. -/
theorem test_enc_nibble :
    (nextOf (step { blk .default 1 2 [3300] with inputs := [.command ⟨0x06, 0, 0x04030201, 0x0D0C0B0A⟩] })).frameReg =
      some [0x00, 0x12, 0x01, 0x02, 0x03, 0x04, 0x0A, 0x0B, 0x0C, 0x0D, 0xE4, 0x0C] := by decide
/-- E14: STRUCT with saturated overflow bytes. -/
theorem test_enc_struct :
    (nextOf (step { blk { Config.default with layout := .struct } 300 255 [] with
        inputs := [.command ⟨0x06, 0, 0xFFFFFFFF, 0⟩] })).frameReg =
      some [0xFF, 0xFF, 0xFF, 0xFF, 0xFF, 0, 0, 0, 0, 0xFF, 0, 0] := by decide
/-- E7, E10: the header, the masked nibble and the truncated voltage. -/
theorem test_enc_header_and_voltage :
    encNibble ⟨0, 300, 0, 0, 70000⟩ = [0xFF, 0x0C, 0, 0, 0, 0, 0, 0, 0, 0, 0x70, 0x11] := by decide
/-- K2 and K3. -/
theorem test_stat_reset :
    lastRsp (nextOf (step (given State.reset 0x07 0))) = some ⟨.ok, 0x08060000, 0, 0, none⟩ ∧
    lastRsp (nextOf (step (given (blk cfgK3 0 0 []) 0x07 0))) = some ⟨.ok, 0x05010000, 0, 0, none⟩ := by decide
/-- R221's example. -/
theorem test_stat_fields :
    lastRsp (nextOf (step (given { blk .default 0 0 [1, 2] with
        errIll := true, frameValid := true, frameReg := some (List.replicate 12 0) } 0x07 0))) =
      some ⟨.ok, 0x08060203, 0, 0, none⟩ := by decide
/-- R223's example, and P4 step 2: no sample is stored. -/
theorem test_illegal :
    nextOf (step (given (blk .default 1 2 [3]) 0x13 5)) =
      { blk .default 1 2 [3] with
        cntInA := 7, cntInB := 9, errIll := true, responses := [⟨.illegal, 0, 0, 0, none⟩] } := by decide
/-- R270. -/
theorem test_reset_event :
    nextOf (step { blk cfgK3 1 2 [3] with errIll := true, inputs := [.reset] }) =
      { State.reset with cfg := cfgK3 } := by decide
/-- The host's placing of a word. -/
theorem test_with_fetch_word : (nextOf (step (State.reset.withFetchWord 8 0x11))).ovfB = 1 := by decide

/-! ## Ports and listings -/

/-- R24, R54: byte 0 on bits 7..0, byte 11 on bits 95..88. -/
theorem test_frame_bits :
    frameBits [0x00, 0x12, 0x01, 0x02, 0x03, 0x04, 0x0A, 0x0B, 0x0C, 0x0D, 0xE4, 0x0C] =
      0x0CE40D0C0B0A040302011200 := by decide
/-- R79, with listings of 95_test_vectors.md. -/
theorem test_parse_repeat : parseLine "257 x ovf b".toList = some (257, .ovf .b) := by rfl
theorem test_parse_feed_negative : parseLine "feed -5".toList = some (1, .feed (-5)) := by rfl
theorem test_parse_word : parseLine ".word 0xE1 ; reserved".toList = some (1, .word 0xE1) := by rfl
theorem test_assemble_listing :
    assemble [(2, .ovf .b), (1, .feed (-5))] = some [(0x11, 0), (0x11, 0), (0x03, 0xFFFFFFFB)] := by decide
/-- R79: one past the operand's range on both sides. -/
theorem test_assemble_out_of_range :
    assembleLine (.feed (-2147483649)) = none ∧ assembleLine (.feed 4294967296) = none := by decide

/-! ## Witnesses: a state or operands that meet a statement's hypotheses together -/

theorem test_witness_decode_of_encode :
    (Instr.illegal 0xFF).wf true = true ∧ Instr.vclr.wf true = true ∧ (Instr.illegal 0x04).wf false = true := by
  decide
theorem test_witness_only_feed_reads_operand : (0x05 : Byte) ≠ 0x03 := by decide
theorem test_witness_step_runs :
    (given State.reset 0x01 0).cfg.wf = true ∧ (given State.reset 0x01 0).live = true ∧
      (given State.reset 0x01 0).inputs = .command ⟨0x01, 0, 7, 9⟩ :: [] := by decide
theorem test_witness_placed_word :
    State.reset.cfg.wf = true ∧ State.reset.cfg.hasVclr = true ∧
      decodeTableWord 40 0x103 = some (.feed 1) := by decide
theorem test_witness_idle : State.reset.cfg.wf = true ∧ State.reset.inputs = [] := by decide
theorem test_witness_ill_formed :
    ¬ (1 ≤ (blk { Config.default with nSamples := 256 } 0 0 []).cfg.nSamples ∧
        (blk { Config.default with nSamples := 256 } 0 0 []).cfg.nSamples ≤ 255 ∧
        9 ≤ (blk { Config.default with nSamples := 256 } 0 0 []).cfg.ovfW ∧
        (blk { Config.default with nSamples := 256 } 0 0 []).cfg.ovfW ≤ 32) := by decide
theorem test_witness_before_reset :
    ({ given State.reset 0x01 0 with live := false } : State).cfg.wf = true ∧
      ({ given State.reset 0x01 0 with live := false } : State).live = false ∧
      ({ given State.reset 0x01 0 with live := false } : State).inputs = .command ⟨0x01, 0, 7, 9⟩ :: [] := by
  decide
theorem test_witness_reset_event :
    ({ blk cfgK3 1 2 [3] with inputs := [.reset] } : State).cfg.wf = true ∧
      ({ blk cfgK3 1 2 [3] with inputs := [.reset] } : State).inputs = .reset :: [] := by decide
theorem test_witness_reset_drops :
    ({ State.reset with inputs := [.command ⟨0x01, 0, 7, 9⟩, .reset] } : State).cfg.wf = true ∧
      ({ State.reset with inputs := [.command ⟨0x01, 0, 7, 9⟩, .reset] } : State).live = true ∧
      ({ State.reset with inputs := [.command ⟨0x01, 0, 7, 9⟩, .reset] } : State).inputs =
        .command ⟨0x01, 0, 7, 9⟩ :: .reset :: [] := by decide
theorem test_witness_power_loss :
    ({ State.reset with inputs := [.powerLoss, .command ⟨0x01, 0, 7, 9⟩] } : State).cfg.wf = true ∧
      ({ State.reset with inputs := [.powerLoss, .command ⟨0x01, 0, 7, 9⟩] } : State).inputs =
        .powerLoss :: .command ⟨0x01, 0, 7, 9⟩ :: [] := by decide
/-- A step that sets the error bit, one that clears it, and one that keeps it: for the statements about
what a step changes. -/
theorem test_witness_error_bit :
    (∃ t, step (given State.reset 0x08 0) = .next t ∧ ¬ (given State.reset 0x08 0).clearedNext) ∧
      (∃ t, step { blk .default 0 0 [] with errIll := true, inputs := [.reset] } = .next t ∧
        ({ blk .default 0 0 [] with errIll := true, inputs := [.reset] } : State).clearedNext) :=
  ⟨⟨_, rfl, by decide⟩, ⟨_, rfl, by decide⟩⟩
theorem test_witness_every_command : (Instr.ovf .b).wf State.reset.cfg.hasVclr = true := by decide
theorem test_witness_reads : Instr.rdch .b ∈ [Instr.rdch .a, .rdch .b, .avg, .stat, .nop] := by decide
theorem test_witness_configuration_kept : ∃ t, step (given State.reset 0x06 0) = .next t := ⟨_, rfl⟩
/-- `State.inv` at the ends of its ranges: a counter at OVF_MAX, a full buffer, a valid frame:
for StatAnswersTheStatusWord, and every other statement about states that meet the invariant. -/
theorem test_witness_inv :
    ({ blk { Config.default with ovfW := 9 } 511 0 [1, 2, 3, 4, 5, 6] with
        frameValid := true, frameReg := some (List.replicate 12 0) } : State).inv = true ∧
      (blk cfgK3 255 0 [0x80000000]).inv = true := by decide
theorem test_witness_ovf : (blk { Config.default with ovfW := 9 } 511 0 []).cfg.wf = true := by decide
theorem test_witness_only_ovf :
    ∃ t, step (given State.reset 0x11 0) = .next t ∧ t.ovf .b ≠ (given State.reset 0x11 0).ovf .b :=
  ⟨_, rfl, by decide⟩
theorem test_witness_header_stays :
    (∃ t, (given (blk .default 256 0 []) 0x01 0).cfg.ovfPolicy = .unboundedSat ∧
        step (given (blk .default 256 0 []) 0x01 0) = .next t ∧
        ¬ (given (blk .default 256 0 []) 0x01 0).clearedNext ∧
        255 < ((given (blk .default 256 0 []) 0x01 0).ovf .a).toNat) ∧
      ((blk cfgK3 255 255 []).inv = true ∧ (blk cfgK3 255 255 []).cfg.ovfPolicy ≠ .unboundedSat) :=
  ⟨⟨_, rfl, rfl, by decide, by decide⟩, by decide⟩
/-- A legal configuration: for CounterAfterKOverflowEvents, EveryRunEndsWithOneResponsePerCommand and
ResetMeetsTheInvariant. -/
theorem test_witness_counter_after_k : cfgK3.wf = true ∧ (withPolicy .sat8).wf = true := by decide
/-- A full buffer, and two FEED with an OVF between them. -/
def feeding : List Command := [⟨0x03, 7, 0, 0⟩, ⟨0x01, 0, 0, 0⟩, ⟨0x03, 8, 0, 0⟩]
def feedState : State := { blk .default 0 0 [1, 2, 3, 4, 5, 6] with inputs := feeding.map .command }

theorem test_witness_feeds :
    feedState.inv = true ∧ feedState.live = true ∧
      (∀ m ∈ feeding, decode feedState.cfg.hasVclr m.word m.data ≠ .vclr) ∧
      feedState.inputs = feeding.map .command := by decide
theorem test_witness_vclr : (blk .default 0 0 [1]).cfg.hasVclr = true := by decide
theorem test_witness_without_vclr :
    ∃ t, (given (blk cfgK3 0 0 [10]) 0x03 20).inv = true ∧ (given (blk cfgK3 0 0 [10]) 0x03 20).cfg.hasVclr = false ∧
      step (given (blk cfgK3 0 0 [10]) 0x03 20) = .next t ∧ ¬ (given (blk cfgK3 0 0 [10]) 0x03 20).clearedNext ∧
      (given (blk cfgK3 0 0 [10]) 0x03 20).vbuf.length = (given (blk cfgK3 0 0 [10]) 0x03 20).cfg.nSamples :=
  ⟨_, by decide, rfl, rfl, by decide, rfl⟩
/-- For MeanTruncatesTowardZero, with a sum of either sign, and MeanLiesBetweenTheSamples. -/
theorem test_witness_mean :
    ([0xFFFFFFFD, 0xFFFFFFFC] : List Word) ≠ [] ∧
      (([0xFFFFFFFD, 0xFFFFFFFC] : List Word).map BitVec.toInt).sum ≤ 0 ∧
      0 ≤ (([1, 2] : List Word).map BitVec.toInt).sum := by decide
theorem test_witness_sample_order :
    (blk .default 0 0 [1, 2]).vbuf.Perm [2, 1] ∧
      (blk .default 0 0 [1, 2]).vbuf.length ≠ (blk .default 0 0 [1, 2]).cfg.nSamples :=
  ⟨List.Perm.swap _ _ _, by decide⟩
theorem test_witness_only_feed_and_vclr :
    ∃ t, step (given (blk .default 0 0 [1]) 0x04 0) = .next t ∧ t.vbuf ≠ (given (blk .default 0 0 [1]) 0x04 0).vbuf :=
  ⟨_, rfl, by decide⟩
/-- For EncWritesTheNibbleFrame and EncWritesTheStructFrame. -/
theorem test_witness_layouts :
    State.reset.cfg.layout = .nibble ∧ (blk cfgK3 0 0 []).cfg.layout = .struct := by decide
/-- Two states with one snapshot: their buffers differ, their means do not. -/
theorem test_witness_equal_snapshots :
    (blk .default 1 2 [1, 3]).cfg.layout = (blk .default 1 2 [2]).cfg.layout ∧
      (blk .default 1 2 [1, 3]).ovfA = (blk .default 1 2 [2]).ovfA ∧
      (blk .default 1 2 [1, 3]).ovfB = (blk .default 1 2 [2]).ovfB ∧
      (blk .default 1 2 [1, 3]).cntInA = (blk .default 1 2 [2]).cntInA ∧
      (blk .default 1 2 [1, 3]).cntInB = (blk .default 1 2 [2]).cntInB ∧
      mean (blk .default 1 2 [1, 3]).vbuf = mean (blk .default 1 2 [2]).vbuf := by decide
/-- Each clause of the NIBBLE laws at the ends of its ranges. -/
theorem test_witness_nibble_laws :
    ((16 : Word).toNat % 16 = (0 : Word).toNat % 16 ∧ (255 < (16 : Word).toNat ↔ 255 < (0 : Word).toNat)) ∧
      ((256 : Word).toNat % 16 = (512 : Word).toNat % 16 ∧ (255 < (256 : Word).toNat ↔ 255 < (512 : Word).toNat)) ∧
      ((⟨16, 255, 0, 0, 0⟩ : Snapshot).ovA.toNat ≤ 255 ∧ (⟨16, 255, 0, 0, 0⟩ : Snapshot).ovB.toNat ≤ 255) ∧
      (256 ≤ (⟨256, 0, 0, 0, 0⟩ : Snapshot).ovA.toNat ∨ 256 ≤ (⟨256, 0, 0, 0, 0⟩ : Snapshot).ovB.toNat) ∧
      ((blk cfgK3 255 255 []).inv = true ∧ (blk cfgK3 255 255 []).cfg.ovfPolicy ≠ .unboundedSat) := by decide
/-- R272, in both layouts. -/
theorem test_witness_enc_after_reset :
    ∀ cfg ∈ [Config.default, cfgK3],
      ({ blk cfg 1 2 [3] with inputs := [.reset, .command ⟨0x06, 0, 7, 9⟩] } : State).cfg.wf = true ∧
        ({ blk cfg 1 2 [3] with inputs := [.reset, .command ⟨0x06, 0, 7, 9⟩] } : State).inputs =
          .reset :: .command ⟨0x06, 0, 7, 9⟩ :: [] := by decide
theorem test_witness_only_enc :
    ∃ t, step (given State.reset 0x06 0) = .next t ∧
      (t.frameReg ≠ (given State.reset 0x06 0).frameReg ∨ t.frameValid ≠ (given State.reset 0x06 0).frameValid) :=
  ⟨_, rfl, by decide⟩
theorem test_witness_frame_out :
    (State.reset.inv = true ∧ State.reset.frameValid = false) ∧
      (({ State.reset with frameValid := true, frameReg := some (List.replicate 12 1) } : State).inv = true ∧
        ({ State.reset with frameValid := true, frameReg := some (List.replicate 12 1) } : State).frameReg =
          some (List.replicate 12 1)) := by decide
theorem test_witness_step_keeps_invariant :
    ∃ t, (given State.reset 0x06 0).inv = true ∧ step (given State.reset 0x06 0) = .next t :=
  ⟨_, by decide, rfl⟩

/-- A realisation with LAT = 3. -/
def real3 : Realisation := { lat := fun _ => 3, readyInResponse := false }

/-- The input ports with a command, and with none. -/
def inCmd : PortsIn := ⟨false, true, 0x01, 0, 7, 9⟩
def inIdle : PortsIn := ⟨false, false, 0, 0, 0, 0⟩
def inRst : PortsIn := ⟨true, true, 0x01, 0, 7, 9⟩

/-- The block at the cycle level after reset. -/
def blockReset : Block := ⟨State.reset, .idle, 0, none⟩

theorem test_witness_cycles_refine :
    blockReset.core.inputs = [] ∧ ∃ b', cycles real3 [inCmd, inIdle, inRst] blockReset = .next b' := ⟨rfl, _, rfl⟩
theorem test_witness_response_after_lat :
    real3.Legal ∧ taken real3 inCmd blockReset = some (.command ⟨0x01, 0, 7, 9⟩) ∧
      (∃ b', cycle real3 inCmd blockReset = .next b') ∧ (∀ q ∈ [inIdle, inCmd], q.rst = false) ∧
      [inIdle, inCmd].IsChain (fun q q' => q.cmdValid = true → q'.cmdValid = true →
        q'.cmd = q.cmd ∧ q'.cmdData = q.cmdData) ∧
      [inIdle, inCmd].length < real3.lat blockReset.accepted ∧
      [inIdle].length + 1 < real3.lat blockReset.accepted :=
  ⟨fun _ => by simp [real3], rfl, ⟨_, rfl⟩, by decide, by simp [inIdle, inCmd], by decide, by decide⟩
theorem test_witness_response_ends :
    (⟨State.reset, .responding, 1, none⟩ : Block).phase = .responding ∧
      (∀ c, taken real3 inIdle ⟨State.reset, .responding, 1, none⟩ ≠ some (.command c)) ∧
      ∃ b', cycle real3 inIdle ⟨State.reset, .responding, 1, none⟩ = .next b' :=
  ⟨rfl, fun _ => by simp [taken, inIdle], _, rfl⟩
theorem test_witness_reset_at_edge :
    blockReset.core.cfg.wf = true ∧ inRst.rst = true ∧ keepsStable inRst blockReset = true := by decide

/-- The block of LAT 3 with a command in flight, and its host presenting the next one. -/
def blockBusy : Block := ⟨State.reset, .busy 2, 1, none⟩
def inNext : PortsIn := ⟨false, true, 0x03, 5, 7, 9⟩

/-- R10: the host may hold the command or withdraw it, and has no move with another operand or word. -/
theorem test_unstable_command :
    keepsStable inNext ⟨State.reset, .busy 1, 1, some (0x03, 5)⟩ = true ∧
      keepsStable inIdle ⟨State.reset, .busy 1, 1, some (0x03, 5)⟩ = true ∧
      keepsStable { inNext with cmdData := 6 } ⟨State.reset, .busy 1, 1, some (0x03, 5)⟩ = false ∧
      keepsStable inCmd ⟨State.reset, .busy 1, 1, some (0x03, 5)⟩ = false := by decide
theorem test_witness_host_stable :
    cycle real3 inNext blockBusy = .next ⟨State.reset, .busy 1, 1, some (0x03, 5)⟩ ∧
      State.reset.live = true ∧ (outputs real3 false blockBusy).cmdReady = false ∧
      (∃ b'', cycle real3 inNext ⟨State.reset, .busy 1, 1, some (0x03, 5)⟩ = .next b'') ∧
      cycle real3 inCmd ⟨State.reset, .busy 1, 1, some (0x03, 5)⟩ = .refused .unstableCommand :=
  ⟨rfl, rfl, rfl, ⟨_, rfl⟩, rfl⟩
theorem test_witness_codes : 2 ≤ (2 : BitVec 2).toNat ∧ 2 ≤ (3 : BitVec 2).toNat := by decide
/-- The ends of the ranges of a `feed` operand. -/
theorem test_witness_assembler :
    assembleLine (.feed (-2147483648)) = some (0x03, 0x80000000) ∧
      assembleLine (.feed 2147483647) = some (0x03, 0x7FFFFFFF) ∧
      assembleLine (.feed 2147483648) = some (0x03, 0x80000000) ∧
      assembleLine (.feed 4294967295) = some (0x03, 0xFFFFFFFF) := by decide
theorem test_witness_host_command :
    hostCommand true .batteryOther = some .vclr ∧ hostCommand false .batteryOther = none := by decide

end Sys2Proof.Tests
end

namespace Sys2Proof.Machine

/-! SUPPORT. What a command answers, beside its `effect`, and what its effect leaves. -/

/-- No command changes the configuration (R28). -/
@[simp] theorem effect_cfg (i : Instr) (s : State) : (effect i s).cfg = s.cfg :=
  (effect_frame i s).1

/-- No command takes back an earlier response (log 4). -/
@[simp] theorem effect_responses (i : Instr) (s : State) : (effect i s).responses = s.responses := by
  obtain ⟨-, -, -, -, -, hresponses⟩ := effect_frame i s
  exact hresponses

/-- The response of each command (R72), beside its `effect`. -/
def answer (i : Instr) (s : State) : Response :=
  match i with
  | .nop => ⟨.ok, 0, 0, 0, none⟩
  | .ovf _ => ⟨.ok, 0, 0, 0, none⟩
  | .rdch c => ⟨.ok, s.draw c, s.ovf c, sat8 (s.ovf c), none⟩
  | .feed _ => ⟨.ok, 0, 0, 0, none⟩
  | .vclr => if s.cfg.hasVclr then ⟨.ok, 0, 0, 0, none⟩ else ⟨.illegal, 0, 0, 0, none⟩
  | .avg => ⟨.ok, BitVec.ofInt 32 (mean s.vbuf), BitVec.ofNat 32 s.fill, 0, none⟩
  | .enc =>
    ⟨.ok, 0, 0, encByte s.cfg.layout (encodeFrame s.cfg.layout (snapshot s)),
      some (encodeFrame s.cfg.layout (snapshot s))⟩
  | .stat => ⟨.ok, statWord s, 0, 0, none⟩
  | .illegal _ => ⟨.illegal, 0, 0, 0, none⟩

/-- A command completes: its effect, with its answer appended. -/
theorem exec_eq_answer (i : Instr) (s : State) :
    exec i s = .next ((effect i s).pushResponse (answer i s)) := by
  cases i with
  | vclr =>
    show execVclr s = _
    unfold execVclr effect answer
    cases s.cfg.hasVclr <;> rfl
  | _ => rfl

/-- A frame that a command answers is the one it has just written to the frame register (R170). -/
theorem effect_frameReg_of_answer {i : Instr} {s : State} {f : Frame}
    (h : (answer i s).frame = some f) :
    (effect i s).frameReg = some f ∧ (effect i s).frameValid = true := by
  cases i with
  | enc => exact ⟨h, rfl⟩
  | vclr =>
    cases hv : s.cfg.hasVclr <;> simp [answer, hv] at h
  | _ => cases h

/-! SUPPORT. The step on each event, and what a step that took a command did. -/

/-- The legal ranges of R6, as propositions. -/
theorem Config.wf_iff (c : Config) :
    c.wf = true ↔ 1 ≤ c.nSamples ∧ c.nSamples ≤ 255 ∧ 9 ≤ c.ovfW ∧ c.ovfW ≤ 32 := by
  simp [Config.wf, and_assoc]

/-- A command next, in a legal block that has been reset, is run on the accepted state. -/
theorem step_eq_exec {s : State} {c : Command} {rest : List Event} (hw : s.cfg.wf = true)
    (hl : s.live = true) (hi : s.inputs = .command c :: rest) :
    step s = exec (decode s.cfg.hasVclr c.word c.data) (accept s c rest) := by
  simp [step, fetch, hw, hl, hi]

/-- A legal block with no event next is idle (R251). -/
theorem step_of_no_input {s : State} (hw : s.cfg.wf = true) (hi : s.inputs = []) :
    step s = .next s := by
  simp [step, fetch, hw, hi]

/-- A legal block takes a reset (R270). -/
theorem step_of_reset {s : State} {rest : List Event} (hw : s.cfg.wf = true)
    (hi : s.inputs = .reset :: rest) :
    step s = .next (applyReset { s with inputs := rest }) := by
  simp [step, fetch, hw, hi]

/-- A legal block takes a power loss (R251). -/
theorem step_of_powerLoss {s : State} {rest : List Event} (hw : s.cfg.wf = true)
    (hi : s.inputs = .powerLoss :: rest) :
    step s = .next (losePower { s with inputs := rest }) := by
  simp [step, fetch, hw, hi]

/-- A block with an ill-formed configuration takes no step (R6). -/
theorem step_of_not_wf {s : State} (hw : s.cfg.wf = false) : step s = .refused .illFormedConfig := by
  simp [step, fetch, hw]

/-- A step that took a command ran it in a block that had been reset, and appended its answer. -/
theorem eq_of_step_command {s t : State} {c : Command} {rest : List Event} (h : step s = .next t)
    (hi : s.inputs = .command c :: rest) :
    t = (effect (decode s.cfg.hasVclr c.word c.data) (accept s c rest)).pushResponse
      (answer (decode s.cfg.hasVclr c.word c.data) (accept s c rest)) := by
  obtain ⟨hw, hcase⟩ := step_cases h
  have hl : s.live = true := by
    rcases hcase with ⟨hi', -⟩ | ⟨_, hi', -⟩ | ⟨_, hi', -⟩ | ⟨_, _, _, -, hl, -⟩
    · simp [hi] at hi'
    · simp [hi] at hi'
    · simp [hi] at hi'
    · exact hl
  rw [step_eq_exec hw hl hi, exec_eq_answer] at h
  cases h
  rfl

/-- A step that took a command appended one response, whose frame, if it has one, is then in the frame
register. -/
theorem exists_response_of_step_command {s t : State} {c : Command} {rest : List Event}
    (h : step s = .next t) (hi : s.inputs = .command c :: rest) :
    ∃ x, t.responses = s.responses ++ [x] ∧
      ∀ f, x.frame = some f → t.frameReg = some f ∧ t.frameValid = true := by
  rw [eq_of_step_command h hi]
  refine ⟨_, ?_, fun _ hf => effect_frameReg_of_answer hf⟩
  rw [pushResponse_responses, effect_responses, accept_responses]

/-- A legal block that has been reset takes every event: no step of it is refused. -/
theorem exists_step_of_live {s : State} (hw : s.cfg.wf = true) (hl : s.live = true) :
    ∃ t, step s = .next t := by
  match hi : s.inputs with
  | [] => exact ⟨_, step_of_no_input hw hi⟩
  | .reset :: _ => exact ⟨_, step_of_reset hw hi⟩
  | .powerLoss :: _ => exact ⟨_, step_of_powerLoss hw hi⟩
  | .command _ :: _ => exact ⟨_, (step_eq_exec hw hl hi).trans (exec_eq_answer _ _)⟩

/-- A step keeps the configuration (R28). -/
theorem step_cfg {s t : State} (h : step s = .next t) : t.cfg = s.cfg := by
  rcases (step_cases h).2 with ⟨-, rfl⟩ | ⟨rest, -, rfl⟩ | ⟨rest, -, rfl⟩ | ⟨c, rest, r, -, -, rfl⟩
  · rfl
  · rfl
  · rfl
  · simp

/-! SUPPORT. The invariant under each update of the state. -/

/-- The invariant, with one bound for both counters. -/
theorem inv_iff (s : State) :
    s.inv = true ↔
      s.cfg.wf = true ∧ (∀ c, (s.ovf c).toNat ≤ s.cfg.ovfMax) ∧ s.vbuf.length ≤ s.cfg.nSamples ∧
        frameOk s.frameValid s.frameReg = true := by
  have both : (∀ c, (s.ovf c).toNat ≤ s.cfg.ovfMax) ↔
      s.ovfA.toNat ≤ s.cfg.ovfMax ∧ s.ovfB.toNat ≤ s.cfg.ovfMax :=
    ⟨fun h => ⟨h .a, h .b⟩, fun h c => by cases c; exacts [h.1, h.2]⟩
  simp [State.inv, both, and_assoc]

@[simp] theorem inv_pushResponse (s : State) (r : Response) : (s.pushResponse r).inv = s.inv := rfl
@[simp] theorem inv_setErrIll (s : State) : s.setErrIll.inv = s.inv := rfl
@[simp] theorem inv_accept (s : State) (c : Command) (rest : List Event) :
    (accept s c rest).inv = s.inv := rfl

/-- Writing a counter within OVF_MAX keeps the invariant. -/
theorem inv_setOvf {s : State} (h : s.inv = true) (c : Channel) {v : Word}
    (hv : v.toNat ≤ s.cfg.ovfMax) : (s.setOvf c v).inv = true := by
  obtain ⟨hw, hovf, hbuf, hfr⟩ := (inv_iff s).1 h
  refine (inv_iff _).2 ⟨by simpa using hw, fun d => ?_, by simpa using hbuf, by simpa using hfr⟩
  by_cases hd : d = c
  · subst hd; simpa using hv
  · simpa [setOvf_ovf_of_ne s hd] using hovf d

/-- Writing a buffer of at most N_SAMPLES keeps the invariant. -/
theorem inv_setVbuf {s : State} (h : s.inv = true) {l : List Word}
    (hl : l.length ≤ s.cfg.nSamples) : (s.setVbuf l).inv = true := by
  obtain ⟨hw, hovf, -, hfr⟩ := (inv_iff s).1 h
  exact (inv_iff _).2 ⟨hw, hovf, hl, hfr⟩

/-- Writing a frame of 12 bytes keeps the invariant. -/
theorem inv_setFrame {s : State} (h : s.inv = true) {f : Frame} (hf : f.length = 12) :
    (s.setFrame f).inv = true := by
  obtain ⟨hw, hovf, hbuf, -⟩ := (inv_iff s).1 h
  exact (inv_iff _).2 ⟨hw, hovf, hbuf, by simp [frameOk, hf]⟩

/-- Reset leads any legal block to its invariant. -/
theorem inv_applyReset {s : State} (hw : s.cfg.wf = true) : (applyReset s).inv = true :=
  (inv_iff _).2 ⟨hw, fun c => by simp, by simp, rfl⟩

/-- The cleared fields after a power loss meet the invariant. -/
theorem inv_losePower {s : State} (hw : s.cfg.wf = true) : (losePower s).inv = true :=
  inv_applyReset hw

/-- Every command keeps the invariant. -/
theorem inv_effect (i : Instr) {s : State} (h : s.inv = true) : (effect i s).inv = true := by
  obtain ⟨hw, hovf, hbuf, -⟩ := (inv_iff s).1 h
  have hcap : 1 ≤ s.cfg.nSamples := ((Config.wf_iff _).1 hw).1
  cases i with
  | ovf c => exact inv_setOvf h c (inc_le_ovfMax hw (hovf c))
  | feed x => exact inv_setVbuf h (appendSample_length_le hcap hbuf x)
  | vclr =>
    show (if s.cfg.hasVclr then s.setVbuf [] else s.setErrIll).inv = true
    split
    · exact inv_setVbuf h (Nat.zero_le _)
    · exact h
  | enc => exact inv_setFrame h (encodeFrame_length _ _)
  | illegal w => exact h
  | nop => exact h
  | rdch c => exact h
  | avg => exact h
  | stat => exact h

/-! ## The invariant and the step -/

/-- Settles O47: a step is idle, clears the state, or runs a command, and each of these keeps the
invariant. -/
theorem stepKeepsTheInvariant : Obligations.StepKeepsTheInvariant := by
  intro s t h hstep
  obtain ⟨hw, hcase⟩ := step_cases hstep
  rcases hcase with ⟨-, rfl⟩ | ⟨rest, -, rfl⟩ | ⟨rest, -, rfl⟩ | ⟨c, rest, r, -, -, rfl⟩
  · exact h
  · exact inv_applyReset hw
  · exact inv_losePower hw
  · rw [inv_pushResponse]
    exact inv_effect _ (by simpa using h)

/-- Settles O17. -/
theorem stepKeepsTheConfiguration : Obligations.StepKeepsTheConfiguration := fun _ _ => step_cfg

/-- Settles O46: the state after reset is the reset of itself, in every configuration. -/
theorem resetMeetsTheInvariant : Obligations.ResetMeetsTheInvariant := by
  have key (cfg : Config) (hw : cfg.wf = true) : ({ State.reset with cfg := cfg } : State).inv = true :=
    inv_applyReset (s := { State.reset with cfg := cfg }) hw
  exact ⟨key Config.default (by decide), key⟩

/-- Settles O8. -/
theorem stepRunsTheDecodedCommand : Obligations.StepRunsTheDecodedCommand :=
  fun _ _ _ hw hl hi => step_eq_exec hw hl hi

/-- Settles O9: accepting the placed command takes it off the list again, and its samples are those the
state already held. -/
theorem placedWordRunsNext : Obligations.PlacedWordRunsNext := by
  intro s nbits w i hw hv hdec
  unfold decodeTableWord at hdec
  split at hdec
  · cases hdec
    have hrun := step_eq_exec (s := s.withFetchWord nbits w) hw rfl rfl
    have hvclr : (s.withFetchWord nbits w).cfg.hasVclr = Config.default.hasVclr := hv
    rwa [hvclr] at hrun
  · cases hdec

/-- Settles O11. -/
theorem illFormedConfigurationIsRefused : Obligations.IllFormedConfigurationIsRefused := by
  intro s h
  rw [← Config.wf_iff, Bool.not_eq_true] at h
  exact step_of_not_wf h

/-! SUPPORT. The handshake of the cycle level, edge by edge (R10, R71). -/

/-- A host keeps its duty at an edge exactly when a command it presented at the edge before, while the
block was not ready, is held or withdrawn (R10). -/
theorem keepsStable_iff {r : Realisation} {p q : PortsIn} {b b' : Block}
    (h : b'.waiting = nextWaiting r p b) :
    keepsStable q b' = true ↔
      (p.cmdValid = true → cmdReady r p.rst b = false → q.cmdValid = true →
        q.cmd = p.cmd ∧ q.cmdData = p.cmdData) := by
  unfold keepsStable
  rw [h, nextWaiting]
  by_cases hwaits : (p.cmdValid && !cmdReady r p.rst b) = true
  · have ⟨hvalid, hready⟩ : p.cmdValid = true ∧ cmdReady r p.rst b = false := by simpa using hwaits
    rw [if_pos hwaits]
    cases q.cmdValid <;> simp [hvalid, hready]
  · have hfree : p.cmdValid = true → cmdReady r p.rst b = true := by simpa using hwaits
    rw [if_neg hwaits]
    simp +contextual [hfree]

/-- A host that breaks its duty has no move (R10, I19). -/
theorem cycle_of_not_keepsStable {r : Realisation} {p : PortsIn} {b : Block}
    (h : keepsStable p b = false) : cycle r p b = .refused .unstableCommand := by
  simp [cycle, h]

/-- A cycle of a legal block that has been reset completes when the host keeps its duty. -/
theorem exists_cycle_of_keepsStable {r : Realisation} {p : PortsIn} {b : Block}
    (hw : b.core.cfg.wf = true) (hl : b.core.live = true) (hk : keepsStable p b = true) :
    ∃ b', cycle r p b = .next b' := by
  obtain ⟨t, ht⟩ :=
    exists_step_of_live (s := { b.core with inputs := (taken r p b).toList }) hw hl
  exact ⟨_, cycle_of_step hk ht⟩

/-- A cycle that completes leaves a legal configuration. -/
theorem cycle_wf {r : Realisation} {p : PortsIn} {b b' : Block} (h : cycle r p b = .next b') :
    b'.core.cfg.wf = true := by
  obtain ⟨-, hstep, -⟩ := cycle_next h
  rw [step_cfg hstep]
  exact (step_cases hstep).1

/-- A command is accepted only while the block is ready. -/
theorem cmdReady_of_taken {r : Realisation} {p : PortsIn} {b : Block} {c : Command}
    (h : taken r p b = some (.command c)) : cmdReady r p.rst b = true := by
  unfold taken at h
  split at h
  · cases h
  · split at h
    · rename_i hacc
      exact (Bool.and_eq_true_iff.1 hacc).2
    · cases h

/-- An edge in reset takes the reset. -/
theorem taken_of_rst (r : Realisation) {p : PortsIn} (b : Block) (h : p.rst = true) :
    taken r p b = some .reset := by
  simp [taken, h]

/-- A block between acceptance and response takes nothing without reset (R71). -/
theorem taken_of_busy (r : Realisation) {p : PortsIn} {b : Block} {n : Nat} (hp : b.phase = .busy n)
    (hr : p.rst = false) : taken r p b = none := by
  simp [taken, cmdReady, Realisation.ready, hp, hr]

/-- Presenting a state the events it is presented already changes nothing. -/
theorem set_inputs_self {s : State} {l : List Event} (h : s.inputs = l) :
    { s with inputs := l } = s := by
  subst h
  rfl

/-- Between acceptance and response an edge keeps the state and counts down. -/
theorem cycle_of_busy {r : Realisation} {p : PortsIn} {b : Block} {n : Nat}
    (hw : b.core.cfg.wf = true) (hi : b.core.inputs = []) (hp : b.phase = .busy n)
    (hr : p.rst = false) (hk : keepsStable p b = true) :
    cycle r p b = .next ⟨b.core, countDown n, b.accepted, nextWaiting r p b⟩ := by
  have ht := taken_of_busy r hp hr
  have hidle : step { b.core with inputs := (taken r p b).toList } = .next b.core := by
    rw [ht]
    exact (congrArg step (set_inputs_self hi)).trans (step_of_no_input hw hi)
  rw [cycle_of_step hk hidle, ht]
  simp [nextPhase, nextAccepted, hp]

/-- The duty of R10 between two edges at which the block is not ready. -/
def HoldsCommand (q q' : PortsIn) : Prop :=
  q.cmdValid = true → q'.cmdValid = true → q'.cmd = q.cmd ∧ q'.cmdData = q.cmdData

/-- While fewer edges pass than are left before the response, the cycles complete, the state stays, and
the countdown goes on. -/
theorem cycles_of_countDown (r : Realisation) (ps : List PortsIn) {b : Block} {n : Nat}
    (hw : b.core.cfg.wf = true) (hi : b.core.inputs = []) (hp : b.phase = countDown n)
    (hr : ∀ q ∈ ps, q.rst = false) (hchain : ps.IsChain HoldsCommand)
    (hhead : ∀ q ∈ ps.head?, keepsStable q b = true) (hlen : ps.length < n) :
    ∃ b'', cycles r ps b = .next b'' ∧ b''.core = b.core ∧ b''.phase = countDown (n - ps.length) := by
  induction ps generalizing b n with
  | nil => exact ⟨b, rfl, rfl, hp⟩
  | cons q ps ih =>
    rw [List.length_cons] at hlen
    have hbusy : b.phase = .busy (n - 1) := by rw [hp, countDown, if_neg (by omega)]
    have hcyc := cycle_of_busy (r := r) hw hi hbusy (hr q (by simp)) (hhead q rfl)
    obtain ⟨hnext, htail⟩ := List.isChain_cons.1 hchain
    obtain ⟨b'', hrun, hcore, hphase⟩ :=
      ih (b := ⟨b.core, countDown (n - 1), b.accepted, nextWaiting r q b⟩) (n := n - 1) hw hi rfl
        (fun q' hq' => hr q' (List.mem_cons_of_mem q hq')) htail
        (fun q' hq' => (keepsStable_iff rfl).2 fun hv _ hv' => hnext q' hq' hv hv') (by omega)
    refine ⟨b'', ?_, hcore, ?_⟩
    · rw [cycles, hcyc]
      exact hrun
    · rw [hphase, List.length_cons]
      congr 1
      omega

/-- Between acceptance and response the block is not ready and shows no response (R71). -/
theorem outputs_of_busy (r : Realisation) {b : Block} {n : Nat} (h : b.phase = .busy n) :
    (outputs r false b).rspValid = false ∧ (outputs r false b).rsp = none ∧
      (outputs r false b).cmdReady = false := by
  simp [outputs, cmdReady, Realisation.ready, h]

/-- In its one cycle the last response stands on the ports (R70, R72). -/
theorem outputs_of_responding (r : Realisation) {b : Block} {l : List Response} {x : Response}
    (h : b.phase = .responding) (hx : b.core.responses = l ++ [x]) :
    (outputs r false b).rspValid = true ∧ (outputs r false b).rsp = some (rspPorts x) := by
  simp [outputs, h, hx]

/-- `frame_out` shows a valid frame in every cycle (R24). -/
theorem outputs_frameOut (r : Realisation) (rst : Bool) {b : Block} {f : Frame}
    (hv : b.core.frameValid = true) (hf : b.core.frameReg = some f) :
    (outputs r rst b).frameOut = some (frameBits f) := by
  simp [outputs, hv, hf]

/-- An edge that accepts a command appends its one response, whose frame, if it has one, is in the frame
register; no event is left over, and the count of LAT begins. -/
theorem cycle_of_taken_command {r : Realisation} {p : PortsIn} {b b' : Block} {c : Command}
    (ht : taken r p b = some (.command c)) (h : cycle r p b = .next b') :
    b'.core.inputs = [] ∧ b'.phase = countDown (r.lat b.accepted) ∧
      ∃ x, b'.core.responses = b.core.responses ++ [x] ∧
        ∀ f, x.frame = some f → b'.core.frameReg = some f ∧ b'.core.frameValid = true := by
  obtain ⟨-, hstep, hphase, -⟩ := cycle_next h
  rw [ht] at hstep hphase
  exact ⟨step_inputs hstep, hphase,
    exists_response_of_step_command (s := { b.core with inputs := [.command c] }) hstep rfl⟩

/-! ## The cycle level -/

/-- Settles O50: acceptance frees the host of any earlier command and begins the countdown of LAT, over
which the state stays; the outputs then follow from where the countdown stands. -/
theorem responseComesLatCyclesLater : Obligations.ResponseComesLatCyclesLater := by
  intro r p b b' c _ ht hcyc
  obtain ⟨hin, hphase, x, hx, hframe⟩ := cycle_of_taken_command ht hcyc
  obtain ⟨-, -, -, -, hwait⟩ := cycle_next hcyc
  refine ⟨x, hx, fun ps hrst hchain hlen => ?_⟩
  have hfree : ∀ q ∈ ps.head?, keepsStable q b' = true := fun q _ =>
    (keepsStable_iff hwait).2 fun _ hnot => by simp [cmdReady_of_taken ht] at hnot
  obtain ⟨b'', hrun, hcore, hphase''⟩ :=
    cycles_of_countDown r ps (cycle_wf hcyc) hin hphase hrst hchain hfree hlen
  refine ⟨b'', hrun, hcore, fun hearly => ?_, fun hdue => ?_⟩
  · rw [countDown, if_neg (by omega)] at hphase''
    exact outputs_of_busy r hphase''
  · rw [countDown, if_pos (by omega)] at hphase''
    obtain ⟨hvalid, hrsp⟩ := outputs_of_responding r hphase'' (hcore ▸ hx)
    refine ⟨hvalid, hrsp.trans ?_, fun f hf => ?_⟩
    · cases hs : x.status <;> simp [rspPorts, Status.code, hs]
    · obtain ⟨hreg, hval⟩ := hframe f hf
      exact outputs_frameOut r false (hcore ▸ hval) (hcore ▸ hreg)

/-- Settles O56: the next cycle completes exactly while the host keeps its duty, and its duty is about
the edge just taken. -/
theorem hostHasAMoveExactlyWhileCommandsAreStable :
    Obligations.HostHasAMoveExactlyWhileCommandsAreStable := by
  intro r p q b b' hcyc hlive
  obtain ⟨-, -, -, -, hwait⟩ := cycle_next hcyc
  have hmove : (∃ b'', cycle r q b' = .next b'') ↔ keepsStable q b' = true :=
    ⟨fun ⟨_, h⟩ => (cycle_next h).1, exists_cycle_of_keepsStable (cycle_wf hcyc) hlive⟩
  refine ⟨hmove.trans (keepsStable_iff hwait), fun hno => ?_⟩
  rw [hmove, Bool.not_eq_true] at hno
  exact cycle_of_not_keepsStable hno

/-- Settles O52: the edge takes the reset event, whose step is `applyReset`, and the block is idle. -/
theorem resetAtTheEdge : Obligations.ResetAtTheEdge := by
  refine ⟨fun r b => ⟨rfl, rfl⟩, fun r p b hw hrst hk => ?_⟩
  have ht := taken_of_rst r b hrst
  have hstep : step { b.core with inputs := (taken r p b).toList } =
      .next (applyReset { b.core with inputs := [] }) := by
    rw [ht]
    exact step_of_reset hw rfl
  have hcyc := cycle_of_step hk hstep
  rw [ht] at hcyc
  exact ⟨_, hcyc, rfl, fun c => by simp, rfl, rfl, rfl, rfl, rfl, rfl⟩

end Sys2Proof.Machine

namespace Sys2Proof

/-! SUPPORT. What a command word decodes to, as facts about 256 words (R74, R76, R77). -/

/-- A fact about a decoded command holds when it holds of FEED with any operand and of every other word
with operand 0 (R74). -/
theorem decode_induction {P : Bool → Byte → Instr → Prop}
    (feed : ∀ hv data, P hv 0x03 (.feed data))
    (other : ∀ hv cmd, cmd ≠ 0x03 → P hv cmd (decode hv cmd 0)) (hv : Bool) (cmd : Byte) (data : Word) :
    P hv cmd (decode hv cmd data) := by
  by_cases h : cmd = 0x03
  · subst h
    rw [decode_feed]
    exact feed hv data
  · rw [decode_data h]
    exact other hv cmd h

/-- The decoder gives only commands that the block has (R76, R77). -/
theorem decode_wf (hv : Bool) (cmd : Byte) (data : Word) : (decode hv cmd data).wf hv = true :=
  decode_induction (P := fun hv _ i => i.wf hv = true) (fun _ _ => rfl) (by decide) hv cmd data

/-- Only word 0x06 is ENC (R75). -/
theorem word_of_decode_enc {hv : Bool} {cmd : Byte} {data : Word} (h : decode hv cmd data = .enc) :
    cmd = 0x06 :=
  decode_induction (P := fun _ cmd i => i = .enc → cmd = 0x06) (fun _ _ h => nomatch h) (by decide)
    hv cmd data h

/-- Whether a command is the ILLEGAL row. -/
def Instr.isIllegal : Instr → Bool
  | .illegal _ => true
  | _ => false

/-- The decoder gives the ILLEGAL row exactly on the words that R77 lists. -/
theorem isIllegal_decode (hv : Bool) (cmd : Byte) (data : Word) :
    (decode hv cmd data).isIllegal = (illegalKind hv cmd).isSome :=
  decode_induction (P := fun hv cmd i => i.isIllegal = (illegalKind hv cmd).isSome)
    (fun hv _ => by cases hv <;> rfl) (by decide) hv cmd data

/-! SUPPORT. Bit fields packed into a word by shifts, read back one by one. -/

/-- Reading above a shift reads the unshifted word. -/
theorem extractLsb'_add_shiftLeft {w : Nat} (x : BitVec w) {k j n : Nat} (h : k + j + n ≤ w) :
    (x <<< k).extractLsb' (k + j) n = x.extractLsb' j n := by
  ext i hi
  rw [BitVec.getElem_extractLsb', BitVec.getElem_extractLsb', BitVec.getLsbD_shiftLeft, Nat.add_assoc,
    Nat.add_sub_cancel_left]
  simp [show k + (j + i) < w by omega]

/-- A shift leaves the places below it 0. -/
theorem extractLsb'_shiftLeft_below {w : Nat} (x : BitVec w) {k j n : Nat} (h : j + n ≤ k) :
    (x <<< k).extractLsb' j n = 0 := by
  ext i hi
  simp [show j + i < k by omega]

/-- A field at the bottom of a word reads back. -/
theorem extractLsb'_setWidth_same {w n : Nat} (x : BitVec n) (h : n ≤ w) :
    (x.setWidth w).extractLsb' 0 n = x := by
  rw [BitVec.extractLsb'_setWidth_of_le (by omega), BitVec.extractLsb'_eq_self]

/-- Past its own width a field is 0. -/
theorem extractLsb'_setWidth_above {w m : Nat} (x : BitVec m) {j n : Nat} (h : m ≤ j) :
    (x.setWidth w).extractLsb' j n = 0 := by
  ext i hi
  simp [BitVec.getLsbD_of_ge x (j + i) (by omega)]

/-- A field reads back at its own place. -/
theorem extractLsb'_field_same {w n : Nat} (x : BitVec n) {k : Nat} (h : k + n ≤ w) :
    (x.setWidth w <<< k).extractLsb' k n = x :=
  (extractLsb'_add_shiftLeft (j := 0) _ h).trans (extractLsb'_setWidth_same x (by omega))

/-- A field leaves every place that it does not reach 0. -/
theorem extractLsb'_field_other {w m : Nat} (x : BitVec m) {k j n : Nat} (h : k + m ≤ j ∨ j + n ≤ k) :
    (x.setWidth w <<< k).extractLsb' j n = 0 := by
  rcases h with habove | hbelow
  · ext i hi
    simp [BitVec.getLsbD_of_ge x (j + i - k) (by omega)]
  · exact extractLsb'_shiftLeft_below _ hbelow

end Sys2Proof

namespace Sys2Proof.Machine

/-! SUPPORT. Which commands write which element of the state (R22, R24, R25). -/

/-- No command takes the mark of a reset away. -/
@[simp] theorem effect_live (i : Instr) (s : State) : (effect i s).live = s.live := by
  obtain ⟨-, -, -, -, hlive, -⟩ := effect_frame i s
  exact hlive

/-- A command that the block has sets `err_ill` exactly when it is illegal, and none clears it (R25). -/
theorem effect_errIll {i : Instr} {s : State} (h : i.wf s.cfg.hasVclr = true) :
    (effect i s).errIll = (s.errIll || i.isIllegal) := by
  cases i with
  | vclr =>
    have hv : s.cfg.hasVclr = true := h
    simp [effect, hv, Instr.isIllegal]
  | illegal w => simp [effect, Instr.isIllegal]
  | _ => simp [effect, Instr.isIllegal]

/-- Only FEED and VCLR write the sample buffer (R22). -/
theorem feed_or_vclr_of_effect_vbuf {i : Instr} {s : State} (h : (effect i s).vbuf ≠ s.vbuf) :
    (∃ x, i = .feed x) ∨ i = .vclr := by
  cases i with
  | feed x => exact .inl ⟨x, rfl⟩
  | vclr => exact .inr rfl
  | _ => exact absurd (by simp [effect]) h

/-- Every command but ENC leaves the frame register and its bit (R24). -/
theorem effect_frameReg_of_ne_enc {i : Instr} (h : i ≠ .enc) (s : State) :
    (effect i s).frameReg = s.frameReg ∧ (effect i s).frameValid = s.frameValid := by
  cases i with
  | enc => exact absurd rfl h
  | vclr => cases hv : s.cfg.hasVclr <;> simp [effect, hv]
  | _ => simp [effect]

/-! SUPPORT. What a step without reset and power loss did. -/

/-- A reset or a power loss clears the error bit (R30; log 5). -/
theorem errIll_of_clearedNext {s t : State} (h : step s = .next t) (hc : s.clearedNext) :
    t.errIll = false := by
  rcases (step_cases h).2 with ⟨hi, -⟩ | ⟨_, -, rfl⟩ | ⟨_, -, rfl⟩ | ⟨_, _, _, hi, -, -⟩
  · simp [State.clearedNext, hi] at hc
  · rfl
  · rfl
  · simp [State.clearedNext, hi] at hc

/-- A step that clears nothing was idle or took a command. -/
theorem eq_or_command_of_not_clearedNext {s t : State} (h : step s = .next t) (hc : ¬ s.clearedNext) :
    (s.inputs = [] ∧ t = s) ∨ ∃ c rest, s.inputs = .command c :: rest := by
  rcases (step_cases h).2 with hidle | ⟨_, hi, -⟩ | ⟨_, hi, -⟩ | ⟨c, rest, _, hi, -, -⟩
  · exact .inl hidle
  · exact absurd (.inl (by simp [hi])) hc
  · exact absurd (.inr (by simp [hi])) hc
  · exact .inr ⟨c, rest, hi⟩

/-- A command keeps the mark that the block has been reset. -/
theorem live_of_step_command {s t : State} {c : Command} {rest : List Event} (h : step s = .next t)
    (hi : s.inputs = .command c :: rest) : t.live = s.live := by
  rw [eq_of_step_command h hi]
  simp

/-- A command sets the error bit exactly when its word is illegal (R25). -/
theorem errIll_of_step_command {s t : State} {c : Command} {rest : List Event} (h : step s = .next t)
    (hi : s.inputs = .command c :: rest) :
    t.errIll = (s.errIll || (illegalKind s.cfg.hasVclr c.word).isSome) := by
  have hwf : (decode s.cfg.hasVclr c.word c.data).wf (accept s c rest).cfg.hasVclr = true :=
    decode_wf _ _ _
  rw [eq_of_step_command h hi, pushResponse_errIll, effect_errIll hwf, isIllegal_decode, accept_errIll]

/-! SUPPORT. Runs of commands. -/

/-- A run of commands in a legal block that has been reset takes them all, and keeps whatever each of its
steps keeps. `P` speaks of the commands still to come and of the state before them. -/
theorem exists_run_of_commands {P : List Command → State → Prop}
    (keep : ∀ {c cs s t}, s.inputs = .command c :: cs.map .command → step s = .next t →
      P (c :: cs) s → P cs t)
    (cmds : List Command) {s : State} (hw : s.cfg.wf = true) (hl : s.live = true)
    (hi : s.inputs = cmds.map .command) (hP : P cmds s) :
    ∃ t, Host.Core.run Sys2Proof.core cmds.length s = .next t ∧ t.inputs = [] ∧ P [] t := by
  induction cmds generalizing s with
  | nil => exact ⟨s, rfl, hi, hP⟩
  | cons c cs ih =>
    rw [List.map_cons] at hi
    obtain ⟨u, hu⟩ := exists_step_of_live hw hl
    have hrest : u.inputs = cs.map .command := by rw [step_inputs hu, hi, List.tail_cons]
    obtain ⟨t, hrun, ht⟩ := ih (by rwa [step_cfg hu]) ((live_of_step_command hu hi).trans hl) hrest
      (keep hi hu hP)
    exact ⟨t, (run_succ hu cs.length).trans hrun, ht⟩

/-- What holds all along a run of `cmds` in the configuration `cfg`, before its last commands `cs`: the
responses so far and the commands to come are as many as `cmds`, and the fault recorded so far and the
words to come tell together whether a word of `cmds` is illegal. -/
structure RunInv (cfg : Config) (cmds cs : List Command) (s : State) : Prop where
  cfg_eq : s.cfg = cfg
  inv : s.inv = true
  answered : s.responses.length + cs.length = cmds.length
  faults : (s.noFaultRecorded ∧ ∀ m ∈ cs, illegalKind cfg.hasVclr m.word = none) ↔
    ∀ m ∈ cmds, illegalKind cfg.hasVclr m.word = none

/-- Each command of a run keeps `RunInv`: it answers once, and records a fault exactly when illegal. -/
theorem RunInv.of_step_command {cfg : Config} {cmds cs : List Command} {c : Command} {s t : State}
    (h : RunInv cfg cmds (c :: cs) s) (hi : s.inputs = .command c :: cs.map .command)
    (hstep : step s = .next t) : RunInv cfg cmds cs t where
  cfg_eq := (step_cfg hstep).trans h.cfg_eq
  inv := stepKeepsTheInvariant s t h.inv hstep
  answered := by
    obtain ⟨x, hx, -⟩ := exists_response_of_step_command hstep hi
    have hcount := h.answered
    simp only [List.length_cons] at hcount
    simp only [hx, List.length_append, List.length_singleton]
    omega
  faults := by
    have herr := errIll_of_step_command hstep hi
    rw [h.cfg_eq] at herr
    rw [← h.faults]
    simp [State.noFaultRecorded, herr, and_assoc]

/-- Settles O48: `RunInv` holds at the start, every command keeps it, and at the end no command is to
come. -/
theorem everyRunEndsWithOneResponsePerCommand :
    Obligations.EveryRunEndsWithOneResponsePerCommand := by
  intro cfg cmds hw
  have hstart : RunInv cfg cmds cmds { State.reset with cfg := cfg, inputs := cmds.map .command } :=
    { cfg_eq := rfl
      inv := resetMeetsTheInvariant.2 cfg hw
      answered := Nat.zero_add _
      faults := and_iff_right rfl }
  obtain ⟨t, hrun, hin, hend⟩ :=
    exists_run_of_commands (fun hi hstep h => h.of_step_command hi hstep) cmds hw rfl rfl hstart
  exact ⟨t, hrun, hend.answered, hin, hend.inv, by simpa using hend.faults⟩

/-! SUPPORT. The word of STAT (R28, R221). -/

/-- In a legal block STAT's word is its fields at their widths, each shifted to its place (R28). -/
theorem statWord_eq_fields {s : State} (h : s.inv = true) :
    statWord s =
      (BitVec.ofBool s.frameValid).setWidth 32
        ||| (BitVec.ofBool s.errIll).setWidth 32 <<< 1
        ||| (BitVec.ofNat 8 s.vbuf.length).setWidth 32 <<< 8
        ||| (BitVec.ofNat 8 s.cfg.nSamples).setWidth 32 <<< 16
        ||| (policyCode s.cfg.ovfPolicy).setWidth 32 <<< 24
        ||| (layoutCode s.cfg.layout).setWidth 32 <<< 26
        ||| (BitVec.ofBool s.cfg.hasVclr).setWidth 32 <<< 27 := by
  obtain ⟨hw, -, hbuf, -⟩ := (inv_iff s).1 h
  obtain ⟨-, hcap, -⟩ := (Config.wf_iff _).1 hw
  have hbyte {n : Nat} (hn : n ≤ 255) : BitVec.ofNat 32 n = (BitVec.ofNat 8 n).setWidth 32 := by
    apply BitVec.eq_of_toNat_eq
    simp
    omega
  rw [statWord, State.fill, hbyte hcap, hbyte (hbuf.trans hcap)]
  rfl

/-- Each field of STAT's word reads back past the others (R28). -/
theorem statWord_fields {s : State} (h : s.inv = true) :
    (statWord s).extractLsb' 0 1 = BitVec.ofBool s.frameValid ∧
      (statWord s).extractLsb' 1 1 = BitVec.ofBool s.errIll ∧
      (statWord s).extractLsb' 2 6 = 0 ∧
      (statWord s).extractLsb' 8 8 = BitVec.ofNat 8 s.vbuf.length ∧
      (statWord s).extractLsb' 16 8 = BitVec.ofNat 8 s.cfg.nSamples ∧
      (statWord s).extractLsb' 24 2 = policyCode s.cfg.ovfPolicy ∧
      (statWord s).extractLsb' 26 1 = layoutCode s.cfg.layout ∧
      (statWord s).extractLsb' 27 1 = BitVec.ofBool s.cfg.hasVclr ∧
      (statWord s).extractLsb' 28 4 = 0 := by
  simp [statWord_eq_fields h, BitVec.extractLsb'_or, extractLsb'_setWidth_same,
    extractLsb'_setWidth_above, extractLsb'_field_same, extractLsb'_field_other]

/-- Settles O19: STAT answers `statWord`, whose two counts fit their bytes by the invariant. -/
theorem statAnswersTheStatusWord : Obligations.StatAnswersTheStatusWord := by
  intro s h
  obtain ⟨hw, -, hbuf, -⟩ := (inv_iff s).1 h
  obtain ⟨-, hcap, -⟩ := (Config.wf_iff _).1 hw
  obtain ⟨hvalid, herr, hlow, hfill, hsize, hpolicy, hlayout, hvclr, hhigh⟩ := statWord_fields h
  refine ⟨statWord s, exec_eq_answer .stat s, hvalid, herr, hlow, ?_, ?_, ?_, ?_, hvclr, hhigh⟩
  · rw [hfill, BitVec.toNat_ofNat]
    omega
  · rw [hsize, BitVec.toNat_ofNat]
    omega
  · rw [hpolicy]
    cases s.cfg.ovfPolicy <;> rfl
  · rw [hlayout]
    cases s.cfg.layout <;> rfl

/-! ## The error bit, the sample buffer and the frame register -/

/-- Settles O21: a step clears the bit, is idle, or takes a command, whose word decides. -/
theorem errorBitIsSticky : Obligations.ErrorBitIsSticky := by
  intro s t h
  refine ⟨errIll_of_clearedNext h, fun hc => ?_⟩
  rcases eq_or_command_of_not_clearedNext h hc with ⟨hi, rfl⟩ | ⟨c, rest, hi⟩
  · simp [hi]
  · simp [errIll_of_step_command h hi, hi, Option.isSome_iff_exists]

/-- Settles O37: only a command can have changed the buffer, and only by its `effect`. -/
theorem onlyFeedAndVclrWriteTheBuffer : Obligations.OnlyFeedAndVclrWriteTheBuffer := by
  intro s t h hne
  refine or_iff_not_imp_left.2 fun hc => ?_
  rcases eq_or_command_of_not_clearedNext h hc with ⟨-, rfl⟩ | ⟨c, rest, hi⟩
  · exact absurd rfl hne
  · rw [eq_of_step_command h hi] at hne
    exact ⟨c, rest, hi, feed_or_vclr_of_effect_vbuf hne⟩

/-- Settles O44: only a command can have changed the frame, and a command that is not ENC has not. -/
theorem onlyEncWritesTheFrame : Obligations.OnlyEncWritesTheFrame := by
  intro s t h hne
  refine or_iff_not_imp_left.2 fun hc => ?_
  rcases eq_or_command_of_not_clearedNext h hc with ⟨-, rfl⟩ | ⟨c, rest, hi⟩
  · simp at hne
  · refine ⟨c, rest, hi, word_of_decode_enc (hv := s.cfg.hasVclr) (data := c.data) ?_⟩
    by_contra henc
    obtain ⟨hreg, hvalid⟩ := effect_frameReg_of_ne_enc henc (accept s c rest)
    rw [eq_of_step_command h hi] at hne
    simp [hreg, hvalid] at hne

/-! SUPPORT. The frame on its port (R24, R54). -/

/-- A frame register that meets the invariant and holds a frame is valid, with 12 bytes. -/
theorem frameOk_some {v : Bool} {f : Frame} : frameOk v (some f) = true ↔ v = true ∧ f.length = 12 := by
  simp [frameOk]

/-- The bits of a frame carry its byte k on bits 8k+7 to 8k (R54). -/
theorem getElem?_eq_extract_frameBits {f : Frame} {k : Nat} (hk : k < f.length) (h12 : k < 12) :
    f[k]? = some ((frameBits f).extractLsb' (8 * k) 8) := by
  induction f generalizing k with
  | nil => simp at hk
  | cons b rest ih =>
    rw [frameBits, BitVec.extractLsb'_or]
    cases k with
    | zero =>
      rw [extractLsb'_setWidth_same b (by omega), extractLsb'_shiftLeft_below _ (by omega)]
      simp
    | succ k =>
      rw [show 8 * (k + 1) = 8 + 8 * k by omega, extractLsb'_setWidth_above b (by omega),
        extractLsb'_add_shiftLeft _ (by omega), List.getElem?_cons_succ,
        ih (by simpa using hk) (by omega)]
      simp

/-- Without a valid frame a read of `frame_out` is refused (log 16). -/
theorem readFrameOut_of_not_valid {s : State} (h : s.frameValid = false) :
    readFrameOut s = .refused .noFrame := by
  simp [readFrameOut, h]

/-- A read of `frame_out` gives the bits of a valid frame (R24). -/
theorem readFrameOut_of_valid {s : State} {f : Frame} (hv : s.frameValid = true)
    (hf : s.frameReg = some f) : readFrameOut s = .next (frameBits f) := by
  simp [readFrameOut, hv, hf]

/-- Settles O45: by the invariant a held frame is valid and has 12 bytes, which its bits carry. -/
theorem frameOutCarriesTheBytes : Obligations.FrameOutCarriesTheBytes := by
  rintro _ r rst b h rfl
  refine ⟨rfl, fun hv => ⟨readFrameOut_of_not_valid hv, by simp [outputs, hv]⟩, fun f hf => ?_⟩
  obtain ⟨-, -, -, hok⟩ := (inv_iff _).1 h
  rw [hf] at hok
  obtain ⟨hv, hlen⟩ := frameOk_some.1 hok
  exact ⟨frameBits f, readFrameOut_of_valid hv hf, outputs_frameOut r rst hv hf,
    fun k hk => getElem?_eq_extract_frameBits (hlen ▸ hk) hk⟩

/-! ## Reset, and the codes of the ports -/

/-- Settles O12: `fetch` refuses the command. -/
theorem commandBeforeResetIsRefused : Obligations.CommandBeforeResetIsRefused := by
  intro s c rest hw hl hi
  simp [step, fetch, hw, hl, hi]

/-- Settles O13: the step is `applyReset`, which writes every element. -/
theorem resetSetsEveryElement : Obligations.ResetSetsEveryElement :=
  fun _ _ hw hi => step_of_reset hw hi

/-- Settles O14, field by field. -/
theorem resetStateHoldsTheResetValues : Obligations.ResetStateHoldsTheResetValues :=
  ⟨fun c => by cases c <;> rfl, rfl, rfl, rfl, rfl⟩

/-- Settles O53: a code of 2 or more is neither of the two that a status has. -/
theorem codesAreReadBackOrRefused : Obligations.CodesAreReadBackOrRefused := by
  refine ⟨fun x => by cases x <;> rfl, fun k hk => ?_, fun x => by cases x <;> rfl, rfl⟩
  have hok : k ≠ 0 := by rintro rfl; simp at hk
  have hillegal : k ≠ 1 := by rintro rfl; simp at hk
  rw [Status.ofCode, if_neg hok, if_neg hillegal]

end Sys2Proof.Machine

namespace Sys2Proof.Machine

/-! SUPPORT. The rest of the host's list has no part in what an event does: a command and a step do the
same whatever is presented behind it (R59). -/

/-- The effect of a command does not depend on the host's list. -/
theorem effect_set_inputs (i : Instr) (s : State) (l : List Event) :
    effect i { s with inputs := l } = { effect i s with inputs := l } := by
  cases i with
  | ovf c => cases c <;> rfl
  | vclr =>
    unfold effect
    cases s.cfg.hasVclr <;> rfl
  | _ => rfl

/-- The answer of a command does not depend on the host's list. -/
theorem answer_set_inputs (i : Instr) (s : State) (l : List Event) :
    answer i { s with inputs := l } = answer i s := by
  cases i <;> rfl

/-- A command completes alike with any host's list, which it leaves as it is. -/
theorem exec_set_inputs {i : Instr} {s t : State} (h : exec i s = .next t) (l : List Event) :
    exec i { s with inputs := l } = .next { t with inputs := l } := by
  rw [exec_eq_answer] at h ⊢
  cases h
  rw [effect_set_inputs, answer_set_inputs]
  rfl

/-- The step that takes an event alone also takes it from the front of a list, and leaves the rest. -/
theorem step_cons_of_step_singleton {s t : State} {e : Event}
    (h : step { s with inputs := [e] } = .next t) (l : List Event) :
    step { s with inputs := e :: l } = .next { t with inputs := l } := by
  obtain ⟨hw, hcase⟩ := step_cases h
  rcases hcase with ⟨hi, -⟩ | ⟨_, hi, rfl⟩ | ⟨_, hi, rfl⟩ | ⟨c, _, _, hi, hl, -⟩
  · cases hi
  · cases hi
    exact step_of_reset hw rfl
  · cases hi
    exact step_of_powerLoss hw rfl
  · cases hi
    rw [step_eq_exec hw hl rfl] at h
    exact (step_eq_exec (s := { s with inputs := .command c :: l }) hw hl rfl).trans
      (exec_set_inputs h l)

/-! SUPPORT. One clock cycle as a part of a run (R71). -/

/-- A run over at most one event and then `l` goes on over `l` from where the step on that event, or the
idle step, led. -/
theorem run_toList_append {s t : State} {o : Option Event}
    (h : step { s with inputs := o.toList } = .next t) (l : List Event) :
    Host.Core.run Sys2Proof.core (o.toList ++ l).length { s with inputs := o.toList ++ l } =
      Host.Core.run Sys2Proof.core l.length { t with inputs := l } := by
  cases o with
  | none =>
    rw [step_of_no_input (step_cases h).1 rfl] at h
    cases h
    rfl
  | some e => exact run_succ (step_cons_of_step_singleton h l) l.length

/-- An edge leaves no event over: it takes at most one, and its step consumes that. -/
theorem cycle_inputs {r : Realisation} {p : PortsIn} {b b' : Block} (h : cycle r p b = .next b') :
    b'.core.inputs = [] := by
  obtain ⟨-, hstep, -⟩ := cycle_next h
  rw [step_inputs hstep]
  cases taken r p b <;> rfl

/-- A run of cycles completes exactly when its first edge does and the rest completes from there. -/
theorem cycles_cons_iff {r : Realisation} {p : PortsIn} {ps : List PortsIn} {b b' : Block} :
    cycles r (p :: ps) b = .next b' ↔ ∃ b₁, cycle r p b = .next b₁ ∧ cycles r ps b₁ = .next b' := by
  rw [cycles]
  cases cycle r p b <;> simp

/-- What a run of cycles took is what its first edge took, if anything, and then what the rest took. -/
theorem transactions_cons {r : Realisation} {p : PortsIn} {b b₁ : Block} (h : cycle r p b = .next b₁)
    (ps : List PortsIn) :
    transactions r (p :: ps) b = (taken r p b).toList ++ transactions r ps b₁ := by
  rw [transactions, h]

/-! ## Cycles and steps -/

/-- Settles O49, by induction over the edges: each is the step on what it took, or idles, and the run goes
on from its state. -/
theorem cyclesRefineSteps : Obligations.CyclesRefineSteps := by
  intro r ps b b' hin hrun
  induction ps generalizing b with
  | nil =>
    cases hrun
    exact congrArg Host.Outcome.next (set_inputs_self hin)
  | cons p ps ih =>
    obtain ⟨b₁, hcyc, hrest⟩ := cycles_cons_iff.1 hrun
    obtain ⟨-, hstep, -⟩ := cycle_next hcyc
    rw [transactions_cons hcyc]
    exact (run_toList_append hstep _).trans (ih b₁ (cycle_inputs hcyc) hrest)

/-! ## Commands that change no state when given, or given again -/

/-- RDCH, AVG, STAT and NOP have no effect beside their response (R58). -/
theorem effect_of_read {i : Instr} (h : i ∈ [.rdch .a, .rdch .b, .avg, .stat, .nop]) (s : State) :
    effect i s = s := by
  simp only [List.mem_cons, List.not_mem_nil, or_false] at h
  rcases h with rfl | rfl | rfl | rfl | rfl <;> rfl

/-- Settles O23. -/
theorem readsChangeNoState : Obligations.ReadsChangeNoState := by
  intro i s hi
  refine ⟨answer i s, ?_⟩
  rw [exec_eq_answer, effect_of_read hi]
  rfl

/-- ENC changes nothing that its own snapshot reads, so a second one writes the same frame (R58, R171). -/
theorem effect_enc_again (s : State) (r : Response) :
    effect .enc ((effect .enc s).pushResponse r) = (effect .enc s).pushResponse r := rfl

/-- Settles O41. -/
theorem encTwiceWritesTheSameFrame : Obligations.EncTwiceWritesTheSameFrame := by
  intro s
  refine ⟨_, answer .enc ((effect .enc s).pushResponse (answer .enc s)), exec_eq_answer .enc s, ?_, rfl⟩
  rw [exec_eq_answer, effect_enc_again]
  rfl

end Sys2Proof.Machine

namespace Sys2Proof

/-! SUPPORT. Encoding and decoding undo each other, word by word (R73 to R77). -/

/-- The word of a decoded command is the word it was decoded from. -/
theorem encodeWord_decode (hv : Bool) (cmd : Byte) (data : Word) :
    encodeWord (decode hv cmd data) = cmd :=
  decode_induction (P := fun _ cmd i => encodeWord i = cmd) (fun _ _ => rfl) (by decide) hv cmd data

/-- Every word but FEED's decodes to a command whose operand is 0 (R79). -/
theorem encodeData_decode_of_ne {cmd : Byte} (h : cmd ≠ 0x03) (hv : Bool) (data : Word) :
    encodeData (decode hv cmd data) = 0 :=
  decode_induction (P := fun _ cmd i => cmd ≠ 0x03 → encodeData i = 0) (fun _ _ h => absurd rfl h)
    (by decide) hv cmd data h

/-- An illegal command is its own word. -/
theorem Instr.isIllegal_iff (i : Instr) : i.isIllegal = true ↔ i = .illegal (encodeWord i) := by
  cases i <;> simp [Instr.isIllegal, encodeWord]

/-- A word decodes to ILLEGAL exactly when R77 lists it. -/
theorem decode_eq_illegal_iff (hv : Bool) (cmd : Byte) (data : Word) :
    decode hv cmd data = .illegal cmd ↔ (illegalKind hv cmd).isSome = true := by
  rw [← isIllegal_decode hv cmd data, Instr.isIllegal_iff, encodeWord_decode]

/-- R77's list, kind by kind. -/
theorem illegalKind_isSome_iff (hv : Bool) (cmd : Byte) :
    (illegalKind hv cmd).isSome = true ↔
      (cmd.toNat / 32 ≠ 0 ∨ (cmd.toNat / 32 = 0 ∧ 8 ≤ cmd.toNat % 16) ∨
        (cmd.toNat / 32 = 0 ∧ cmd.toNat / 16 % 2 = 1 ∧ cmd.toNat % 16 ∈ [0, 3, 4, 5, 6, 7]) ∨
        (cmd.toNat = 4 ∧ hv = false)) := by
  simp only [List.mem_cons, List.not_mem_nil, or_false]
  unfold illegalKind
  split_ifs with hbits hop hch hvclr
  · exact iff_of_true rfl (.inl hbits)
  · exact iff_of_true rfl (.inr (.inl (by omega)))
  · exact iff_of_true rfl (.inr (.inr (.inl (by omega))))
  · exact iff_of_true rfl (.inr (.inr (.inr hvclr)))
  · refine iff_of_false nofun ?_
    rintro (h | h | h | h)
    · omega
    · omega
    · omega
    · exact hvclr h

/-- A word that none of R75's commands has is on R77's list. -/
theorem illegalKind_isSome_of_not_mem {hv : Bool} {cmd : Byte}
    (h : cmd ∉ ([0x00, 0x01, 0x11, 0x02, 0x12, 0x03, 0x05, 0x06, 0x07] : List Byte))
    (hvclr : ¬ (cmd = 0x04 ∧ hv = true)) : (illegalKind hv cmd).isSome = true := by
  rw [illegalKind_isSome_iff]
  simp only [List.mem_cons, List.not_mem_nil, or_false, ← BitVec.toNat_inj, BitVec.reduceToNat] at *
  cases hv
  · simp only [and_true]
    omega
  · simp only [and_true] at hvclr
    omega

/-- Every word from 32 up has reserved bits set. -/
theorem illegalKind_of_le (hv : Bool) {n : Nat} (hn : n < 256) (h : 32 ≤ n) :
    illegalKind hv (BitVec.ofNat 8 n) = some .reservedBits := by
  refine if_pos ?_
  rw [BitVec.toNat_ofNat]
  omega

/-- The words of a kind, counted: those below 32, and the 224 from there up if the kind is that of the
reserved bits. -/
theorem countP_illegalKind (hv : Bool) (k : Option IllegalKind) :
    (List.range 256).countP (fun n => illegalKind hv (BitVec.ofNat 8 n) = k) =
      (List.range 32).countP (fun n => illegalKind hv (BitVec.ofNat 8 n) = k) +
        if some .reservedBits = k then 224 else 0 := by
  rw [show 256 = 32 + 224 from rfl, List.range_add, List.countP_append, List.countP_map]
  congr 1
  have above : ∀ n ∈ List.range 224,
      illegalKind hv (BitVec.ofNat 8 (32 + n)) = some .reservedBits := fun n hn =>
    illegalKind_of_le hv (by have := List.mem_range.1 hn; omega) (Nat.le_add_right 32 n)
  split_ifs with hk
  · rw [List.countP_eq_length.2 fun n hn => by simp [above n hn, hk], List.length_range]
  · exact List.countP_eq_zero.2 fun n hn => by simp [above n hn, hk]

/-! ## Encoding -/

/-- Settles O1: the decoder reads each legal word back by computation, and an illegal command stands on a
word that R77 lists. -/
theorem decodeOfEncodeIsTheCommand : Obligations.DecodeOfEncodeIsTheCommand := by
  intro hv i h
  cases i with
  | ovf c => cases c <;> rfl
  | rdch c => cases c <;> rfl
  | feed x => exact decode_feed hv x
  | vclr =>
    have hpresent : hv = true := h
    rw [hpresent]
    rfl
  | illegal w => exact (decode_eq_illegal_iff hv w 0).2 h
  | _ => rfl

/-- Settles O2: the word comes back whatever it spells, and the operand is FEED's alone. -/
theorem encodeOfDecodeIsTheWord : Obligations.EncodeOfDecodeIsTheWord := by
  intro hv cmd data
  refine Prod.ext (encodeWord_decode hv cmd data) ?_
  by_cases h : cmd = 0x03
  · rw [h, decode_feed]
    rfl
  · exact (encodeData_decode_of_ne h hv data).trans (if_neg h).symm

/-- Settles O3: a fact about 256 words, by `decode_wf`. -/
theorem decodedCommandIsWellFormed : Obligations.DecodedCommandIsWellFormed := decode_wf

/-- Settles O4: each legal word is decoded by itself, and every other word is on R77's list. -/
theorem decodeFollowsTheCommandWords : Obligations.DecodeFollowsTheCommandWords := by
  intro hv cmd data
  constructor
  · rw [eq_comm]
    refine ite_eq_iff'.2 ⟨by rintro rfl; rfl, fun hnop => ?_⟩
    refine ite_eq_iff'.2 ⟨by rintro rfl; rfl, fun hovfA => ?_⟩
    refine ite_eq_iff'.2 ⟨by rintro rfl; rfl, fun hovfB => ?_⟩
    refine ite_eq_iff'.2 ⟨by rintro rfl; rfl, fun hrdchA => ?_⟩
    refine ite_eq_iff'.2 ⟨by rintro rfl; rfl, fun hrdchB => ?_⟩
    refine ite_eq_iff'.2 ⟨by rintro rfl; exact (decode_feed hv data).symm, fun hfeed => ?_⟩
    refine ite_eq_iff'.2 ⟨by rintro ⟨rfl, rfl⟩; rfl, fun hvclr => ?_⟩
    refine ite_eq_iff'.2 ⟨by rintro rfl; rfl, fun havg => ?_⟩
    refine ite_eq_iff'.2 ⟨by rintro rfl; rfl, fun henc => ?_⟩
    refine ite_eq_iff'.2 ⟨by rintro rfl; rfl, fun hstat => ?_⟩
    refine ((decode_eq_illegal_iff hv cmd data).2 (illegalKind_isSome_of_not_mem ?_ hvclr)).symm
    simp only [List.mem_cons, not_or]
    exact ⟨hnop, hovfA, hovfB, hrdchA, hrdchB, hfeed, havg, henc, hstat, List.not_mem_nil⟩
  · simp only [ne_eq, decode_eq_illegal_iff, Bool.not_eq_true, Option.isSome_eq_false_iff,
      Option.isNone_iff_eq_none, countP_illegalKind]
    cases hv <;> decide

/-- Settles O5: the decoder's illegal words are R77's, whose kinds are then counted. -/
theorem illegalWordsAreThoseListed : Obligations.IllegalWordsAreThoseListed := by
  intro hv cmd data
  refine ⟨(decode_eq_illegal_iff hv cmd data).trans (illegalKind_isSome_iff hv cmd), ?_⟩
  simp only [countP_illegalKind]
  cases hv <;> decide

/-- Settles O6. -/
theorem onlyFeedReadsTheOperand : Obligations.OnlyFeedReadsTheOperand :=
  fun hv _ d d' => ⟨fun h => (decode_data h hv d).trans (decode_data h hv d').symm, decode_feed hv d⟩

/-- Settles O7, word by word. -/
theorem writtenOutWordsDecode : Obligations.WrittenOutWordsDecode :=
  ⟨rfl, rfl, rfl, rfl, rfl, rfl, rfl, rfl⟩

end Sys2Proof

namespace Sys2Proof.Machine

/-! SUPPORT. The status and the frame of an answer (R72, R241). -/

/-- A command that the block has answers ILLEGAL exactly when it is illegal (R241). -/
theorem answer_status_eq_illegal_iff {i : Instr} {s : State} (h : i.wf s.cfg.hasVclr = true) :
    (answer i s).status = .illegal ↔ ∃ w, i = .illegal w := by
  cases i with
  | vclr =>
    have hv : s.cfg.hasVclr = true := h
    simp [answer, hv]
  | _ => simp [answer]

/-- Only ENC answers a frame (R72). -/
theorem answer_frame_of_ne_enc {i : Instr} (h : i ≠ .enc) (s : State) : (answer i s).frame = none := by
  cases i with
  | enc => exact absurd rfl h
  | vclr => cases hv : s.cfg.hasVclr <;> simp [answer, hv]
  | _ => rfl

/-! ## One answer to each command -/

/-- Settles O22: a command completes with its effect and its one answer. -/
theorem everyCommandAnswersOnce : Obligations.EveryCommandAnswersOnce := by
  intro i s h
  refine ⟨_, answer i s, exec_eq_answer i s, ?_, answer_status_eq_illegal_iff h, ?_,
    fun henc => answer_frame_of_ne_enc henc s⟩
  · rw [pushResponse_responses, effect_responses]
  · rintro rfl
    exact ⟨rfl, Option.some_ne_none _⟩

/-! SUPPORT. A `feed` line of a listing (R79). -/

/-- A `feed` operand in its range is assembled as its 32-bit pattern. -/
theorem assembleLine_feed_of_mem {v : Int} (h : -2147483648 ≤ v ∧ v ≤ 4294967295) :
    assembleLine (.feed v) = some (encode (.feed (BitVec.ofInt 32 v))) := if_pos h

/-- A `feed` operand outside its range is refused. -/
theorem assembleLine_feed_of_not_mem {v : Int} (h : ¬ (-2147483648 ≤ v ∧ v ≤ 4294967295)) :
    assembleLine (.feed v) = none := if_neg h

/-- The pattern of a number that fits 32 signed bits is its two's complement. -/
theorem sampleMv_ofInt {v : Int} (hlo : -2147483648 ≤ v) (hhi : v < 2147483648) :
    sampleMv (BitVec.ofInt 32 v) = v :=
  BitVec.toInt_ofInt_eq_self (by decide) hlo hhi

/-- The pattern of a number that fits 32 unsigned bits is the number. -/
theorem toNat_ofInt_word {v : Int} (hlo : 0 ≤ v) (hhi : v ≤ 4294967295) :
    ((BitVec.ofInt 32 v).toNat : Int) = v := by
  rw [BitVec.toNat_ofInt]
  omega

/-- Settles O54: in its range the operand is FEED's pattern, and outside it the line is refused. -/
theorem assemblerTakesFeedOperandsInRange : Obligations.AssemblerTakesFeedOperandsInRange := by
  intro v
  by_cases h : -2147483648 ≤ v ∧ v ≤ 4294967295
  · rw [assembleLine_feed_of_mem h]
    refine ⟨⟨nofun, by omega⟩, ?_⟩
    rintro _ _ ⟨⟩ hv
    exact ⟨_, decode_feed hv _, sampleMv_ofInt h.1, fun hpos => toNat_ofInt_word hpos h.2⟩
  · rw [assembleLine_feed_of_not_mem h]
    exact ⟨iff_of_true rfl (by omega), nofun⟩

/-! SUPPORT. The end of a response (R71). -/

/-- An edge that accepts no command in the cycle of a response ends it. -/
theorem nextPhase_of_responding (r : Realisation) {b : Block} {o : Option Event}
    (hp : b.phase = .responding) (ho : ∀ c, o ≠ some (.command c)) : nextPhase r b o = .idle := by
  match o with
  | none => simp [nextPhase, hp]
  | some .reset => rfl
  | some .powerLoss => rfl
  | some (.command c) => exact absurd rfl (ho c)

/-- An idle block is ready and shows no response (R71; log 16, log 21). -/
theorem outputs_of_idle (r : Realisation) {b : Block} (h : b.phase = .idle) :
    (outputs r false b).rspValid = false ∧ (outputs r false b).rsp = none ∧
      (outputs r false b).cmdReady = true := by
  simp [outputs, cmdReady, Realisation.ready, h]

/-- Settles O51: the edge leads to an idle cycle. -/
theorem responseLastsOneCycle : Obligations.ResponseLastsOneCycle := by
  intro r p b b' hp hno hcyc
  obtain ⟨-, -, hphase, -⟩ := cycle_next hcyc
  exact outputs_of_idle r (hphase.trans (nextPhase_of_responding r hp hno))

end Sys2Proof.Machine

namespace Sys2Proof.Machine

/-! SUPPORT. The largest counter and the increment under each policy (R7, R100). -/

/-- Under UNBOUNDED_SAT a counter has OVF_W bits (R7). -/
theorem ovfMax_of_unboundedSat {cfg : Config} (h : cfg.ovfPolicy = .unboundedSat) :
    cfg.ovfMax = 2 ^ cfg.ovfW - 1 := by
  simp [Config.ovfMax, Config.ovfWidth, h]

/-- Under WRAP8 and SAT8 a counter has 8 bits (R7). -/
theorem ovfMax_of_ne_unboundedSat {cfg : Config} (h : cfg.ovfPolicy ≠ .unboundedSat) :
    cfg.ovfMax = 255 := by
  cases hp : cfg.ovfPolicy with
  | unboundedSat => exact absurd hp h
  | wrap8 => simp [Config.ovfMax, Config.ovfWidth, hp]
  | sat8 => simp [Config.ovfMax, Config.ovfWidth, hp]

/-- Under UNBOUNDED_SAT the increment never decreases a counter (R106). -/
theorem le_inc_of_unboundedSat {cfg : Config} (hw : cfg.wf = true) (h : cfg.ovfPolicy = .unboundedSat)
    (x : Word) : x.toNat ≤ (inc cfg x).toNat := by
  simp only [inc_toNat hw, h]
  split <;> omega

/-- The header shows no error while no counter exceeds 255 (R173). -/
theorem hdr_eq_zero {x y : Word} (hx : x.toNat ≤ 255) (hy : y.toNat ≤ 255) : hdr x y = 0x00 :=
  if_neg (by omega)

/-- The table of R104: a counter that starts at 0, after `k` increments. -/
def ovfAfter (cfg : Config) (k : Nat) : Nat :=
  match cfg.ovfPolicy with
  | .unboundedSat => min k cfg.ovfMax
  | .wrap8 => k % 256
  | .sat8 => min k 255

/-- Without an increment the counter is 0. -/
theorem ovfAfter_zero (cfg : Config) : ovfAfter cfg 0 = 0 := by
  unfold ovfAfter
  cases cfg.ovfPolicy <;> simp

/-- One more increment is one line further in the table of R104. -/
theorem inc_toNat_of_ovfAfter {cfg : Config} (hw : cfg.wf = true) {x : Word} {k : Nat}
    (hx : x.toNat = ovfAfter cfg k) : (inc cfg x).toNat = ovfAfter cfg (k + 1) := by
  rw [inc_toNat hw]
  unfold ovfAfter at hx ⊢
  cases hp : cfg.ovfPolicy with
  | unboundedSat =>
    simp only [hp] at hx ⊢
    split <;> omega
  | wrap8 =>
    simp only [hp] at hx ⊢
    omega
  | sat8 =>
    simp only [hp] at hx ⊢
    split <;> omega

/-! SUPPORT. A counter over steps and runs of commands (R101, R105). -/

/-- A command increments the counter of a channel exactly when it is OVF of that channel. -/
theorem ovf_of_step_command {s t : State} {m : Command} {rest : List Event} (h : step s = .next t)
    (hi : s.inputs = .command m :: rest) (c : Channel) :
    t.ovf c = if decode s.cfg.hasVclr m.word m.data = .ovf c then inc s.cfg (s.ovf c) else s.ovf c := by
  rw [eq_of_step_command h hi, pushResponse_ovf, effect_ovf, accept_ovf]
  rfl

/-- How many of the commands are OVF of a channel. -/
def ovfEvents (cfg : Config) (c : Channel) (cmds : List Command) : Nat :=
  cmds.countP (fun m => decide (decode cfg.hasVclr m.word m.data = .ovf c))

@[simp] theorem ovfEvents_nil (cfg : Config) (c : Channel) : ovfEvents cfg c [] = 0 := rfl

/-- The first command of a list counts if it is OVF of the channel. -/
theorem ovfEvents_cons (cfg : Config) (c : Channel) (m : Command) (cs : List Command) :
    ovfEvents cfg c (m :: cs) =
      ovfEvents cfg c cs + if decode cfg.hasVclr m.word m.data = .ovf c then 1 else 0 := by
  simp [ovfEvents, List.countP_cons]

/-- What holds all along a run in the configuration `cfg` with `n` OVF of the channel `c` in all, before
its last commands `cs`: the counter stands where the OVF before `cs` have brought it. -/
structure CounterInv (cfg : Config) (c : Channel) (n : Nat) (cs : List Command) (s : State) : Prop where
  cfg_eq : s.cfg = cfg
  counted : ∃ k, (s.ovf c).toNat = ovfAfter cfg k ∧ k + ovfEvents cfg c cs = n

/-- Each command of a run keeps `CounterInv`: OVF of the channel moves the counter on by one, and every
other command leaves it. -/
theorem CounterInv.of_step_command {cfg : Config} {c : Channel} {n : Nat} {cs : List Command}
    {m : Command} {s t : State} (h : CounterInv cfg c n (m :: cs) s)
    (hi : s.inputs = .command m :: cs.map .command) (hstep : step s = .next t) :
    CounterInv cfg c n cs t where
  cfg_eq := (step_cfg hstep).trans h.cfg_eq
  counted := by
    obtain ⟨k, hk, hn⟩ := h.counted
    have hw : cfg.wf = true := h.cfg_eq ▸ (step_cases hstep).1
    rw [ovf_of_step_command hstep hi c, h.cfg_eq]
    rw [ovfEvents_cons] at hn
    split_ifs at hn ⊢ with hovf
    · exact ⟨k + 1, inc_toNat_of_ovfAfter hw hk, by omega⟩
    · exact ⟨k, hk, by omega⟩

/-- From reset, a run of commands brings the counter of a channel where the table of R104 has it:
`CounterInv` holds at the start with no OVF counted, and at the end with every one. -/
theorem exists_run_ovf_eq_ovfAfter {cfg : Config} (hw : cfg.wf = true) (cmds : List Command)
    (c : Channel) :
    ∃ t, Host.Core.run Sys2Proof.core cmds.length
        { State.reset with cfg := cfg, inputs := cmds.map .command } = .next t ∧
      (t.ovf c).toNat = ovfAfter cfg (ovfEvents cfg c cmds) := by
  have hzero : ({ State.reset with cfg := cfg, inputs := cmds.map .command } : State).ovf c = 0 := by
    cases c <;> rfl
  have hstart : CounterInv cfg c (ovfEvents cfg c cmds) cmds
      { State.reset with cfg := cfg, inputs := cmds.map .command } :=
    { cfg_eq := rfl
      counted := ⟨0, by rw [hzero, ovfAfter_zero]; rfl, Nat.zero_add _⟩ }
  obtain ⟨t, hrun, -, hend⟩ :=
    exists_run_of_commands (fun hi hstep h => h.of_step_command hi hstep) cmds hw rfl rfl hstart
  obtain ⟨k, hovf, hk⟩ := hend.counted
  rw [ovfEvents_nil, Nat.add_zero] at hk
  exact ⟨t, hrun, hk ▸ hovf⟩

/-! ## The overflow accumulator -/

/-- Settles O28: the run brings the counter to its place in the table of R104, and RDCH reads it whole
and clamped at 255, which is within OVF_MAX. -/
theorem counterAfterKOverflowEvents : Obligations.CounterAfterKOverflowEvents := by
  intro cfg cmds c hw
  obtain ⟨t, hrun, hovf⟩ := exists_run_ovf_eq_ovfAfter hw cmds c
  refine ⟨t, answer (.rdch c) t, hrun, exec_eq_answer (.rdch c) t, rfl, ?_⟩
  intro k
  have hb : (answer (.rdch c) t).b.toNat = ovfAfter cfg k := hovf
  have hc : (answer (.rdch c) t).c.toNat = min (ovfAfter cfg k) 255 := hovf ▸ sat8_toNat (t.ovf c)
  clear_value k
  rw [hb, hc]
  have hmax := (ovfMax_bounds hw).1
  unfold ovfAfter
  cases hp : cfg.ovfPolicy with
  | unboundedSat =>
    rw [ovfMax_of_unboundedSat hp] at hmax ⊢
    exact ⟨rfl, by simp only; omega⟩
  | wrap8 => exact ⟨rfl, by simp only; omega⟩
  | sat8 => exact ⟨rfl, by simp only; omega⟩

/-- Settles O24: OVF's effect writes the increment, whose number is the policy's. -/
theorem ovfAppliesThePolicyOnce : Obligations.OvfAppliesThePolicyOnce := by
  intro c s hw
  refine ⟨inc s.cfg (s.ovf c), ?_, ?_⟩
  · cases c with
    | a => exact exec_eq_answer (.ovf .a) s
    | b => exact exec_eq_answer (.ovf .b) s
  · rw [inc_toNat hw]
    cases hp : s.cfg.ovfPolicy with
    | unboundedSat => simp only [ovfMax_of_unboundedSat hp]
    | wrap8 => rfl
    | sat8 => rfl

/-- Settles O26: only a command can have changed the counter, and only as OVF of its channel. -/
theorem onlyOvfChangesItsCounter : Obligations.OnlyOvfChangesItsCounter := by
  intro s t c h hne
  refine or_iff_not_imp_left.2 fun hc => ?_
  rcases eq_or_command_of_not_clearedNext h hc with ⟨-, rfl⟩ | ⟨m, rest, hi⟩
  · exact absurd rfl hne
  · rw [ovf_of_step_command h hi] at hne
    exact ⟨m, rest, hi, of_not_not fun hno => hne (if_neg hno)⟩

/-- Settles O27: under UNBOUNDED_SAT a command keeps or increments the counter; under the other policies
the invariant bounds it by 255. -/
theorem headerErrorConditionStays : Obligations.HeaderErrorConditionStays := by
  refine ⟨fun s t c hp h hc hlt => ?_, fun s hinv hp => ?_⟩
  · rcases eq_or_command_of_not_clearedNext h hc with ⟨-, rfl⟩ | ⟨m, rest, hi⟩
    · exact hlt
    · rw [ovf_of_step_command h hi]
      split
      · exact hlt.trans_le (le_inc_of_unboundedSat (step_cases h).1 hp _)
      · exact hlt
  · obtain ⟨-, hovf, -, -⟩ := (inv_iff s).1 hinv
    rw [ovfMax_of_ne_unboundedSat hp] at hovf
    exact ⟨hovf, hdr_eq_zero (hovf .a) (hovf .b)⟩

/-- Settles O25: RDCH's answer reads the state, and its effect is none. -/
theorem rdchReportsTheChannel : Obligations.RdchReportsTheChannel := by
  intro c s
  refine ⟨answer (.rdch c) s, exec_eq_answer (.rdch c) s, rfl, ?_, ?_, sat8_toNat (s.ovf c), rfl⟩
  · cases c <;> rfl
  · cases c <;> rfl

end Sys2Proof.Machine

namespace Sys2Proof

/-- Only word 0x03 is FEED (R75). -/
theorem word_of_decode_feed {hv : Bool} {cmd : Byte} {data x : Word}
    (h : decode hv cmd data = .feed x) : cmd = 0x03 := by
  rw [← encodeWord_decode hv cmd data, h]
  rfl

/-- A block without VCLR decodes no word to it (R133). -/
theorem decode_ne_vclr (cmd : Byte) (data : Word) : decode false cmd data ≠ .vclr := by
  intro h
  have hwf := decode_wf false cmd data
  rw [h] at hwf
  cases hwf

end Sys2Proof

namespace Sys2Proof.Machine

/-! SUPPORT. The newest samples of a list: Mathlib's `rtake n`, its last `n` elements or all of it. -/

/-- Of a list whose older part was already cut to its newest elements, the newest are the same. -/
theorem rtake_rtake_append (n : Nat) (l m : List Word) : (l.rtake n ++ m).rtake n = (l ++ m).rtake n := by
  simp [List.rtake_eq_reverse_take_reverse, List.take_append, List.take_take]

/-- A list within the capacity is its own newest elements. -/
theorem rtake_of_length_le {n : Nat} {l : List Word} (h : l.length ≤ n) : l.rtake n = l := by
  simp [List.rtake, Nat.sub_eq_zero_of_le h]

/-- An append keeps the newest samples of the lengthened list (R130). -/
theorem appendSample_eq_rtake {n : Nat} (hn : 1 ≤ n) {l : List Word} (hl : l.length ≤ n) (x : Word) :
    appendSample n l x = (l ++ [x]).rtake n := by
  obtain ⟨n, rfl⟩ := Nat.exists_eq_add_of_le' hn
  rw [List.rtake_concat_succ]
  unfold appendSample
  split
  · next hfull => rw [List.rtake, hfull, Nat.add_sub_cancel_left, List.drop_one]
  · next hroom => rw [rtake_of_length_le (by omega)]

/-! SUPPORT. The sample buffer over steps and runs of commands (R130, R131, R133). -/

/-- The samples that a list of commands feeds, first fed first. -/
def fedSamples (cmds : List Command) : List Word :=
  (cmds.filter (fun m => decide (m.word = 0x03))).map Command.data

/-- A FEED at the front of a list feeds its operand first. -/
theorem fedSamples_cons_of_feed {m : Command} (h : m.word = 0x03) (cs : List Command) :
    fedSamples (m :: cs) = m.data :: fedSamples cs := by
  simp [fedSamples, h]

/-- Any other command at the front of a list feeds nothing. -/
theorem fedSamples_cons_of_ne {m : Command} (h : m.word ≠ 0x03) (cs : List Command) :
    fedSamples (m :: cs) = fedSamples cs :=
  congrArg (List.map Command.data) (List.filter_cons_of_neg (by simpa using h))

/-- A step on FEED appends its operand to the buffer. -/
theorem vbuf_of_step_feed {s t : State} {m : Command} {rest : List Event} (h : step s = .next t)
    (hi : s.inputs = .command m :: rest) (hfeed : m.word = 0x03) :
    t.vbuf = appendSample s.cfg.nSamples s.vbuf m.data := by
  rw [eq_of_step_command h hi, hfeed, decode_feed]
  rfl

/-- A step on a command that is neither FEED nor VCLR leaves the buffer. -/
theorem vbuf_of_step_other {s t : State} {m : Command} {rest : List Event} (h : step s = .next t)
    (hi : s.inputs = .command m :: rest) (hfeed : m.word ≠ 0x03)
    (hvclr : decode s.cfg.hasVclr m.word m.data ≠ .vclr) : t.vbuf = s.vbuf := by
  rw [eq_of_step_command h hi, pushResponse_vbuf]
  by_contra hne
  rcases feed_or_vclr_of_effect_vbuf hne with ⟨x, hx⟩ | hx
  · exact hfeed (word_of_decode_feed hx)
  · exact hvclr hx

/-- What holds all along a run without VCLR in the configuration `cfg`, before its last commands `cs`:
the buffer and the samples still to be fed have `final` as their newest samples. -/
structure BufferInv (cfg : Config) (final : List Word) (cs : List Command) (s : State) : Prop where
  cfg_eq : s.cfg = cfg
  inv : s.inv = true
  no_vclr : ∀ m ∈ cs, decode cfg.hasVclr m.word m.data ≠ .vclr
  newest : (s.vbuf ++ fedSamples cs).rtake cfg.nSamples = final

/-- Each command of a run keeps `BufferInv`: FEED moves its sample from those to come into the buffer,
and every other command moves none. -/
theorem BufferInv.of_step_command {cfg : Config} {final : List Word} {cs : List Command} {m : Command}
    {s t : State} (h : BufferInv cfg final (m :: cs) s)
    (hi : s.inputs = .command m :: cs.map .command) (hstep : step s = .next t) :
    BufferInv cfg final cs t where
  cfg_eq := (step_cfg hstep).trans h.cfg_eq
  inv := stepKeepsTheInvariant s t h.inv hstep
  no_vclr := fun m' hm' => h.no_vclr m' (List.mem_cons_of_mem m hm')
  newest := by
    have hnewest := h.newest
    obtain rfl := h.cfg_eq
    obtain ⟨hw, -, hbuf, -⟩ := (inv_iff s).1 h.inv
    by_cases hfeed : m.word = 0x03
    · rw [vbuf_of_step_feed hstep hi hfeed, appendSample_eq_rtake ((Config.wf_iff _).1 hw).1 hbuf,
        rtake_rtake_append, List.append_assoc]
      rwa [fedSamples_cons_of_feed hfeed] at hnewest
    · rw [vbuf_of_step_other hstep hi hfeed (h.no_vclr m List.mem_cons_self)]
      rwa [fedSamples_cons_of_ne hfeed] at hnewest

/-- The effect of VCLR where the block has it (R132). -/
theorem effect_vclr_of_present {s : State} (h : s.cfg.hasVclr = true) : effect .vclr s = s.setVbuf [] :=
  if_pos h

/-- The effect of VCLR where the block lacks it (R133; log 12). -/
theorem effect_vclr_of_absent {s : State} (h : s.cfg.hasVclr = false) : effect .vclr s = s.setErrIll :=
  if_neg (by simp [h])

/-- Where the block has it, VCLR empties the buffer (R132). -/
theorem execVclr_of_present {s : State} (h : s.cfg.hasVclr = true) :
    execVclr s = .next ((s.setVbuf []).pushResponse ⟨.ok, 0, 0, 0, none⟩) :=
  if_pos h

/-- Where the block lacks it, VCLR is handled as an illegal command (R133; log 12). -/
theorem execVclr_of_absent {s : State} (h : s.cfg.hasVclr = false) :
    execVclr s = .next (s.setErrIll.pushResponse ⟨.illegal, 0, 0, 0, none⟩) :=
  if_neg (by simp [h])

/-! ## The sample buffer -/

/-- Settles O30: `BufferInv` holds at the start for the newest of all the samples, and at the end, with
none to come, the buffer is within its capacity and so is these samples. -/
theorem feedsKeepTheNewestSamples : Obligations.FeedsKeepTheNewestSamples := by
  intro s cmds hinv hlive hno hi
  have hstart : BufferInv s.cfg ((s.vbuf ++ fedSamples cmds).rtake s.cfg.nSamples) cmds s :=
    { cfg_eq := rfl, inv := hinv, no_vclr := hno, newest := rfl }
  obtain ⟨t, hrun, -, hend⟩ :=
    exists_run_of_commands (fun hi hstep h => h.of_step_command hi hstep) cmds
      ((inv_iff s).1 hinv).1 hlive hi hstart
  obtain ⟨-, -, hbuf, -⟩ := (inv_iff t).1 hend.inv
  rw [hend.cfg_eq] at hbuf
  refine ⟨t, hrun, ?_⟩
  calc t.vbuf = (t.vbuf ++ fedSamples []).rtake s.cfg.nSamples := by
        rw [show fedSamples [] = [] from rfl, List.append_nil, rtake_of_length_le hbuf]
    _ = (s.vbuf ++ fedSamples cmds).rtake s.cfg.nSamples := hend.newest
    _ = (s.vbuf ++ fedSamples cmds).drop (s.vbuf.length + (fedSamples cmds).length
          - min (s.vbuf.length + (fedSamples cmds).length) s.cfg.nSamples) := by
        rw [List.rtake, List.length_append]
        congr 1
        omega

/-- Settles O32: without VCLR a command is FEED, whose append never shortens the buffer and leaves a full
one full, or it leaves the buffer. -/
theorem withoutVclrOnlyResetLowersTheFill : Obligations.WithoutVclrOnlyResetLowersTheFill := by
  refine ⟨fun data => (decode_eq_illegal_iff false 0x04 data).2 rfl, fun s => execVclr_of_absent,
    fun s t hinv hv hstep hc => ?_⟩
  rcases eq_or_command_of_not_clearedNext hstep hc with ⟨-, rfl⟩ | ⟨m, rest, hi⟩
  · exact ⟨le_rfl, id⟩
  · by_cases hfeed : m.word = 0x03
    · obtain ⟨hw, -⟩ := (inv_iff s).1 hinv
      rw [vbuf_of_step_feed hstep hi hfeed, appendSample_length ((Config.wf_iff _).1 hw).1]
      split_ifs <;> omega
    · rw [vbuf_of_step_other hstep hi hfeed (hv ▸ decode_ne_vclr m.word m.data)]
      exact ⟨le_rfl, id⟩

/-- Settles O29: FEED's effect is the append. -/
theorem feedAppendsTheSample : Obligations.FeedAppendsTheSample :=
  fun x s => exec_eq_answer (.feed x) s

/-- Settles O31. -/
theorem vclrEmptiesTheBuffer : Obligations.VclrEmptiesTheBuffer := fun _ => execVclr_of_present

/-! SUPPORT. The mean of the samples (R134, R136, R137). -/

/-- The sum of the samples is the sum of their two's-complement values. -/
theorem sampleSum_eq_sum_toInt (l : List Word) : sampleSum l = (l.map BitVec.toInt).sum := rfl

/-- The mean of some samples is their sum over their number, truncated toward zero. -/
theorem mean_of_ne_nil {l : List Word} (h : l ≠ []) : mean l = (sampleSum l).tdiv l.length :=
  if_neg (by simpa using h)

/-- A bound below on the sum, of so many times `a`, is a bound on the mean: truncation is monotone and
exact on multiples. -/
theorem le_mean_of_mul_le {l : List Word} (h : l ≠ []) {a : Int} (ha : a * l.length ≤ sampleSum l) :
    a ≤ mean l := by
  have hpos : (0 : Int) < l.length := by exact_mod_cast List.length_pos_iff.2 h
  calc a = (a * l.length).tdiv l.length := (Int.mul_tdiv_cancel a hpos.ne').symm
    _ ≤ (sampleSum l).tdiv l.length := Int.tdiv_le_tdiv hpos ha
    _ = mean l := (mean_of_ne_nil h).symm

/-- A bound above on the sum, of so many times `a`, is a bound on the mean. -/
theorem mean_le_of_le_mul {l : List Word} (h : l ≠ []) {a : Int} (ha : sampleSum l ≤ a * l.length) :
    mean l ≤ a := by
  have hpos : (0 : Int) < l.length := by exact_mod_cast List.length_pos_iff.2 h
  calc mean l = (sampleSum l).tdiv l.length := mean_of_ne_nil h
    _ ≤ (a * l.length).tdiv l.length := Int.tdiv_le_tdiv hpos ha
    _ = a := Int.mul_tdiv_cancel a hpos.ne'

/-- A bound below on every sample is one on the mean. -/
theorem le_mean {l : List Word} (h : l ≠ []) {a : Int} (ha : ∀ x ∈ l, a ≤ x.toInt) : a ≤ mean l := by
  refine le_mean_of_mul_le h ?_
  rw [sampleSum_eq_sum_toInt]
  have hsum := (l.map BitVec.toInt).card_nsmul_le_sum a (by simpa using ha)
  rwa [List.length_map, nsmul_eq_mul, mul_comm] at hsum

/-- A bound above on every sample is one on the mean. -/
theorem mean_le {l : List Word} (h : l ≠ []) {a : Int} (ha : ∀ x ∈ l, x.toInt ≤ a) : mean l ≤ a := by
  refine mean_le_of_le_mul h ?_
  rw [sampleSum_eq_sum_toInt]
  have hsum := (l.map BitVec.toInt).sum_le_card_nsmul a (by simpa using ha)
  rwa [List.length_map, nsmul_eq_mul, mul_comm] at hsum

/-- The mean does not depend on the order of the samples (R137). -/
theorem mean_eq_of_perm {l l' : List Word} (h : l.Perm l') : mean l = mean l' := by
  unfold mean sampleSum
  rw [h.length_eq, (h.map sampleMv).sum_eq]

/-- A dividend of at most 0 leaves a remainder of at most 0, beside Mathlib's `Int.tmod_nonneg`. -/
theorem tmod_nonpos_of_nonpos {a : Int} (h : a ≤ 0) (b : Int) : a.tmod b ≤ 0 := by
  have hneg := Int.tmod_nonneg (a := -a) b (by omega)
  rw [Int.neg_tmod] at hneg
  omega

/-! ## The mean -/

/-- Settles O34: the remainder is that of the truncated division, and the signs follow from the sum's. -/
theorem meanTruncatesTowardZero : Obligations.MeanTruncatesTowardZero := by
  refine ⟨rfl, fun l h => ?_⟩
  rw [← sampleSum_eq_sum_toInt]
  refine ⟨(sampleSum l).tmod l.length, sampleSum_eq l h, ?_, fun hsum => ?_, fun hsum => ?_⟩
  · have hpos : (0 : Int) < l.length := by exact_mod_cast List.length_pos_iff.2 h
    exact abs_lt.2 ⟨Int.lt_tmod_of_pos _ hpos, Int.tmod_lt_of_pos _ hpos⟩
  · exact ⟨Int.tmod_nonneg _ hsum, le_mean_of_mul_le h (by simpa using hsum)⟩
  · exact ⟨tmod_nonpos_of_nonpos hsum _, mean_le_of_le_mul h (by simpa using hsum)⟩

/-- Settles O35: a least and a greatest sample bound every sample and so the mean, which therefore fits
32 signed bits as they do. -/
theorem meanLiesBetweenTheSamples : Obligations.MeanLiesBetweenTheSamples := by
  refine ⟨rfl, fun l h => ?_⟩
  have hne : l.toFinset.Nonempty := List.toFinset_nonempty_iff l |>.2 h
  obtain ⟨lo, hlo, hmin⟩ := l.toFinset.exists_min_image BitVec.toInt hne
  obtain ⟨hi, hhi, hmax⟩ := l.toFinset.exists_max_image BitVec.toInt hne
  simp only [List.mem_toFinset] at hlo hmin hhi hmax
  have hlow : lo.toInt ≤ mean l := le_mean h hmin
  have hhigh : mean l ≤ hi.toInt := mean_le h hmax
  refine ⟨lo, hlo, hi, hhi, fun x hx => ⟨hmin x hx, hmax x hx⟩, hlow, hhigh, ?_⟩
  exact BitVec.toInt_ofInt_eq_self (by decide) (lo.le_toInt.trans hlow) (hhigh.trans_lt hi.toInt_lt)

/-- Settles O33: AVG's answer is the mean and the fill, and its effect is none. -/
theorem avgReportsTheMean : Obligations.AvgReportsTheMean :=
  fun s => exec_eq_answer .avg s

/-! SUPPORT. Commands on two states that differ in the order of the buffer (R137). -/

/-- ENC's inputs do not depend on the order of the samples. -/
theorem snapshot_setVbuf_of_perm {s : State} {l : List Word} (h : s.vbuf.Perm l) :
    snapshot (s.setVbuf l) = snapshot s := by
  simp [snapshot, mean_eq_of_perm h, State.draw]

/-- No answer depends on the order of the samples. -/
theorem answer_setVbuf_of_perm (i : Instr) {s : State} {l : List Word} (h : s.vbuf.Perm l) :
    answer i (s.setVbuf l) = answer i s := by
  cases i with
  | rdch c => cases c <;> rfl
  | avg => simp [answer, State.fill, mean_eq_of_perm h, h.length_eq]
  | enc => simp [answer, snapshot_setVbuf_of_perm h]
  | stat => simp [answer, statWord, State.fill, h.length_eq]
  | _ => rfl

/-- No effect but that on the buffer depends on the order of the samples. -/
theorem effect_setVbuf_of_perm (i : Instr) {s : State} {l : List Word} (h : s.vbuf.Perm l) :
    effect i (s.setVbuf l) = (effect i s).setVbuf (effect i (s.setVbuf l)).vbuf := by
  cases i with
  | ovf c => cases c <;> rfl
  | vclr =>
    cases hv : s.cfg.hasVclr with
    | true =>
      rw [effect_vclr_of_present hv, effect_vclr_of_present (s := s.setVbuf l) hv]
      rfl
    | false =>
      rw [effect_vclr_of_absent hv, effect_vclr_of_absent (s := s.setVbuf l) hv]
      rfl
  | enc =>
    simp only [effect, snapshot_setVbuf_of_perm h]
    rfl
  | _ => rfl

/-- The buffers stay permutations of each other, unless FEED evicts. -/
theorem effect_vbuf_perm {i : Instr} {s : State} {l : List Word} (h : s.vbuf.Perm l)
    (hno : (∀ x, i ≠ .feed x) ∨ s.vbuf.length ≠ s.cfg.nSamples) :
    (effect i s).vbuf.Perm (effect i (s.setVbuf l)).vbuf := by
  cases i with
  | feed x =>
    have hroom : s.vbuf.length ≠ s.cfg.nSamples := hno.resolve_left fun hx => hx x rfl
    have hroom' : l.length ≠ s.cfg.nSamples := h.length_eq ▸ hroom
    simpa [effect, appendSample, hroom, hroom'] using h.append_right [x]
  | vclr =>
    cases hv : s.cfg.hasVclr with
    | true => rw [effect_vclr_of_present hv, effect_vclr_of_present (s := s.setVbuf l) hv]; rfl
    | false => rwa [effect_vclr_of_absent hv, effect_vclr_of_absent (s := s.setVbuf l) hv]
  | _ => simpa [effect] using h

/-! ## The order of the samples, and the host's mapping -/

/-- Settles O36: answers and effects agree apart from the buffer, whatever order it has. -/
theorem sampleOrderMattersOnlyForEviction : Obligations.SampleOrderMattersOnlyForEviction := by
  refine ⟨fun l l' => mean_eq_of_perm, fun i s l h =>
    ⟨_, _, exec_eq_answer i s, exec_eq_answer i (s.setVbuf l), ?_, effect_vbuf_perm h⟩⟩
  rw [answer_setVbuf_of_perm i h, effect_setVbuf_of_perm i h]
  rfl

/-- The host gives only commands that the block has (R138). -/
theorem hostCommand_wf {hv : Bool} {e : DriverEvent} {i : Instr} (h : hostCommand hv e = some i) :
    i.wf hv = true := by
  cases e with
  | batteryOther => cases hv <;> cases h; rfl
  | _ => cases h <;> rfl

/-- Settles O55, event by event. -/
theorem hostMapsDriverEvents : Obligations.HostMapsDriverEvents := by
  refine fun hv => ⟨fun c => rfl, fun mv => rfl, rfl, ?_, fun e i => hostCommand_wf⟩
  simp [hostCommand]

end Sys2Proof.Machine

namespace Sys2Proof.Machine

/-! SUPPORT. The frame of each layout, byte by byte (R175, R178). -/

/-- The twelve bytes of a NIBBLE frame, as numbers (R175). -/
theorem encNibble_eq_bytes (n : Snapshot) :
    encNibble n =
      [hdr n.ovA n.ovB,
       BitVec.ofNat 8 (n.ovA.toNat % 16 * 16 + n.ovB.toNat % 16),
       BitVec.ofNat 8 n.cA.toNat, BitVec.ofNat 8 (n.cA.toNat / 2 ^ 8),
       BitVec.ofNat 8 (n.cA.toNat / 2 ^ 16), BitVec.ofNat 8 (n.cA.toNat / 2 ^ 24),
       BitVec.ofNat 8 n.cB.toNat, BitVec.ofNat 8 (n.cB.toNat / 2 ^ 8),
       BitVec.ofNat 8 (n.cB.toNat / 2 ^ 16), BitVec.ofNat 8 (n.cB.toNat / 2 ^ 24),
       BitVec.ofInt 8 n.v, BitVec.ofInt 8 (n.v / 256)] := by
  rw [encNibble, ovbyte_eq_ofNat, le32_eq_ofNat, le32_eq_ofNat, le16_trunc16]
  rfl

/-- The twelve bytes of a STRUCT frame, as numbers (R178, R179). -/
theorem encStruct_eq_bytes (n : Snapshot) :
    encStruct n =
      [BitVec.ofNat 8 n.cA.toNat, BitVec.ofNat 8 (n.cA.toNat / 2 ^ 8),
       BitVec.ofNat 8 (n.cA.toNat / 2 ^ 16), BitVec.ofNat 8 (n.cA.toNat / 2 ^ 24),
       BitVec.ofNat 8 (min n.ovA.toNat 255),
       BitVec.ofNat 8 n.cB.toNat, BitVec.ofNat 8 (n.cB.toNat / 2 ^ 8),
       BitVec.ofNat 8 (n.cB.toNat / 2 ^ 16), BitVec.ofNat 8 (n.cB.toNat / 2 ^ 24),
       BitVec.ofNat 8 (min n.ovB.toNat 255),
       BitVec.ofInt 8 n.v, BitVec.ofInt 8 (n.v / 256)] := by
  rw [encStruct, le32_eq_ofNat, le32_eq_ofNat, le16_trunc16]
  rfl

/-- Byte 0 of a NIBBLE frame is the header (R175). -/
theorem encNibble_getElem?_zero (n : Snapshot) : (encNibble n)[0]? = some (hdr n.ovA n.ovB) := rfl

/-- Byte 1 of a NIBBLE frame is the overflow byte (R175). -/
theorem encNibble_getElem?_one (n : Snapshot) : (encNibble n)[1]? = some (ovbyte n.ovA n.ovB) := rfl

/-- The header sees of each counter only whether it exceeds 255 (R173). -/
theorem hdr_congr {x x' y y' : Word} (hx : 255 < x.toNat ↔ 255 < x'.toNat)
    (hy : 255 < y.toNat ↔ 255 < y'.toNat) : hdr x y = hdr x' y' := by
  simp only [hdr, hx, hy]

/-- The overflow byte sees of each counter only its low nibble (R174). -/
theorem ovbyte_congr {x x' y y' : Word} (hx : x.toNat % 16 = x'.toNat % 16)
    (hy : y.toNat % 16 = y'.toNat % 16) : ovbyte x y = ovbyte x' y' := by
  rw [ovbyte_eq_ofNat, ovbyte_eq_ofNat, hx, hy]

/-! SUPPORT. ENC (R170). -/

/-- ENC under NIBBLE writes the NIBBLE frame of its snapshot, and answers the header. -/
theorem exec_enc_of_nibble {s : State} (h : s.cfg.layout = .nibble) :
    exec .enc s = .next ((s.setFrame (encNibble (snapshot s))).pushResponse
      ⟨.ok, 0, 0, hdr s.ovfA s.ovfB, some (encNibble (snapshot s))⟩) := by
  rw [exec_eq_answer, effect, answer, h]
  rfl

/-- ENC under STRUCT writes the STRUCT frame of its snapshot, and answers 0. -/
theorem exec_enc_of_struct {s : State} (h : s.cfg.layout = .struct) :
    exec .enc s = .next ((s.setFrame (encStruct (snapshot s))).pushResponse
      ⟨.ok, 0, 0, 0, some (encStruct (snapshot s))⟩) := by
  rw [exec_eq_answer, effect, answer, h]
  rfl

/-- ENC reads the counters, the counts and the mean, and nothing else (R171). -/
theorem snapshot_congr {s s' : State} (hovA : s.ovfA = s'.ovfA) (hovB : s.ovfB = s'.ovfB)
    (hcA : s.cntInA = s'.cntInA) (hcB : s.cntInB = s'.cntInB) (hv : mean s.vbuf = mean s'.vbuf) :
    snapshot s = snapshot s' := by
  simp only [snapshot, State.ovf, State.draw, hovA, hovB, hcA, hcB, hv]

/-! ## The frame encoder -/

/-- Settles O38. -/
theorem encWritesTheNibbleFrame : Obligations.EncWritesTheNibbleFrame := fun s h =>
  ⟨hdr s.ovfA s.ovfB, encNibble (snapshot s), exec_enc_of_nibble h, rfl,
    encNibble_eq_bytes (snapshot s)⟩

/-- Settles O39. -/
theorem encWritesTheStructFrame : Obligations.EncWritesTheStructFrame := fun s h =>
  ⟨encStruct (snapshot s), exec_enc_of_struct h, encStruct_eq_bytes (snapshot s)⟩

/-- Settles O40: the frame is a function of the layout and the snapshot, which the two states share. -/
theorem frameIsTwelveBytesOfTheSnapshot : Obligations.FrameIsTwelveBytesOfTheSnapshot := by
  intro s s' hl hovA hovB hcA hcB hv
  have hsame : encodeFrame s'.cfg.layout (snapshot s') = encodeFrame s.cfg.layout (snapshot s) := by
    rw [hl, snapshot_congr hovA hovB hcA hcB hv]
  exact ⟨_, _, encodeFrame s.cfg.layout (snapshot s), exec_eq_answer .enc s, exec_eq_answer .enc s',
    rfl, congrArg some hsame, encodeFrame_length _ _⟩

/-- Settles O42: the counters reach a NIBBLE frame only through the header and the overflow byte. -/
theorem nibbleLayoutLaws : Obligations.NibbleLayoutLaws := by
  refine ⟨fun n x hmod habove => ?sameA, fun n x hmod habove => ?sameB, fun n hA hB => ⟨?zero, ?low⟩,
    fun n h => ?error, fun s hinv hp => ?eightBit⟩
  case sameA => simp only [encNibble, hdr_congr habove .rfl, ovbyte_congr hmod rfl]
  case sameB => simp only [encNibble, hdr_congr .rfl habove, ovbyte_congr rfl hmod]
  case zero => rw [encNibble_getElem?_zero, hdr_eq_zero hA hB]
  case low => rw [encNibble_getElem?_one, ovbyte_eq_ofNat]
  case error => rw [encNibble_getElem?_zero, (hdr_eq_err_iff _ _).2 h]
  case eightBit =>
    obtain ⟨-, hheader⟩ := headerErrorConditionStays.2 s hinv hp
    exact (encNibble_getElem?_zero (snapshot s)).trans (congrArg some hheader)

end Sys2Proof.Machine

namespace Sys2Proof

/-- Word 0x00, and no other, is NOP (R75, R76): a decoded command encodes to the word it was decoded
from, and NOP's word reads no operand. -/
theorem decode_eq_nop_iff (hv : Bool) (cmd : Byte) (data : Word) :
    decode hv cmd data = .nop ↔ cmd = 0x00 := by
  constructor
  · intro h
    calc
      cmd = encodeWord (decode hv cmd data) := (encodeWord_decode hv cmd data).symm
      _ = encodeWord .nop := by rw [h]
      _ = 0x00 := rfl
  · rintro rfl
    exact (decode_data (by decide) hv data).trans (decodeOfEncodeIsTheCommand hv .nop rfl)

end Sys2Proof

namespace Sys2Proof.Machine

/-! ## NOP and the illegal command -/

/-- Settles O18: NOP has no effect beside its answer, and 0x00 alone decodes to it. -/
theorem nopLeavesTheStateUnchanged : Obligations.NopLeavesTheStateUnchanged :=
  ⟨exec_eq_answer .nop, decode_eq_nop_iff⟩

/-- Settles O20: the effect of an illegal command is `setErrIll`. -/
theorem illegalCommandSetsOnlyTheErrorBit : Obligations.IllegalCommandSetsOnlyTheErrorBit :=
  fun w => exec_eq_answer (.illegal w)

end Sys2Proof.Machine

namespace Sys2Proof.Machine

/-! ## The idle block and power loss -/

/-- Settles O10. -/
theorem stepWithoutInputIsIdle : Obligations.StepWithoutInputIsIdle :=
  fun _ hw hi => step_of_no_input hw hi

/-- Settles O16: the step is `losePower`, which unsets `live` and keeps the command next; a block that is
not live refuses it, as before its first reset (O12). -/
theorem powerLossNeedsReset : Obligations.PowerLossNeedsReset := by
  intro s c rest hw hi
  refine ⟨_, step_of_powerLoss hw hi, losePower_live _, losePower_frameValid _, ?refused⟩
  case refused =>
    exact commandBeforeResetIsRefused _ c rest hw (losePower_live _) (losePower_inputs _)

end Sys2Proof.Machine

namespace Sys2Proof

/-- Word 0x06 is ENC (R75), whatever its operand (R74). -/
theorem decode_enc (hv : Bool) (data : Word) : decode hv 0x06 data = .enc :=
  (decode_data (by decide) hv data).trans (decodeOfEncodeIsTheCommand hv .enc rfl)

end Sys2Proof

namespace Sys2Proof.Machine

/-! SUPPORT. What a reset leaves of the state before it (R270, R271). -/

/-- Reset keeps the configuration, the count samples and the host's list, and nothing else of the state
it meets. -/
theorem applyReset_congr {s s' : State} (hcfg : s.cfg = s'.cfg) (hA : s.cntInA = s'.cntInA)
    (hB : s.cntInB = s'.cntInB) (hin : s.inputs = s'.inputs) : applyReset s = applyReset s' := by
  simp only [applyReset, hcfg, hA, hB, hin]

/-- A reset drops all that a command has done but the sampling of the counts (R270). -/
theorem applyReset_effect_pushResponse (i : Instr) (s : State) (r : Response) (l : List Event) :
    applyReset { (effect i s).pushResponse r with inputs := l } = applyReset { s with inputs := l } := by
  obtain ⟨hcfg, hA, hB, -⟩ := effect_frame i s
  exact applyReset_congr hcfg hA hB rfl

/-! SUPPORT. The frame of a block that has only been reset (R272). -/

/-- The mean of an empty buffer is 0 (R134). -/
theorem mean_nil : mean [] = 0 := if_pos rfl

/-- Right after a reset, a command that is accepted finds its own counts, and 0 everywhere else (R272). -/
theorem snapshot_accept_applyReset (s : State) (c : Command) (rest : List Event) :
    snapshot (accept (applyReset s) c rest) = ⟨0, 0, c.drawA, c.drawB, 0⟩ := by
  simp [snapshot, mean_nil]

/-- Both bytes of a voltage of 0 are 0 (R176). -/
theorem le16_trunc16_zero : le16 (trunc16 0) = [0, 0] := by decide

/-- The NIBBLE frame without overflows and voltage has a header and an overflow byte of 0 (R272). -/
theorem encNibble_of_zero (cA cB : Word) :
    encNibble ⟨0, 0, cA, cB, 0⟩ = [0, 0] ++ le32 cA ++ le32 cB ++ [0, 0] := by
  have hheader : hdr 0 0 = 0 := hdr_eq_zero (by decide) (by decide)
  have hoverflow : ovbyte 0 0 = 0 := by decide
  rw [encNibble, hheader, hoverflow, le16_trunc16_zero]
  rfl

/-- The STRUCT frame without overflows and voltage has two overflow bytes of 0 (R272). -/
theorem encStruct_of_zero (cA cB : Word) :
    encStruct ⟨0, 0, cA, cB, 0⟩ = le32 cA ++ [0] ++ le32 cB ++ [0] ++ [0, 0] := by
  have hoverflow : sat8 0 = 0 := by decide
  rw [encStruct, hoverflow, le16_trunc16_zero]

/-- A step that takes ENC right after a reset leaves the frame of two counters at 0, the counts and a
voltage of 0 in the frame register. -/
theorem step_enc_applyReset {s : State} {d cA cB : Word} {rest : List Event} (hw : s.cfg.wf = true)
    (hi : s.inputs = .command ⟨0x06, d, cA, cB⟩ :: rest) :
    ∃ t, step (applyReset s) = .next t ∧ t.frameValid = true ∧
      t.frameReg = some (encodeFrame s.cfg.layout ⟨0, 0, cA, cB, 0⟩) := by
  refine ⟨_, (step_eq_exec (s := applyReset s) hw rfl hi).trans (exec_eq_answer _ _), ?_⟩
  rw [decode_enc, pushResponse_frameValid, pushResponse_frameReg, effect, snapshot_accept_applyReset]
  exact ⟨rfl, rfl⟩

/-! ## Around a reset -/

/-- Settles O15: the command completes, and the reset after it keeps only the sampled counts, which
`accept` had already written. -/
theorem resetDropsTheCommandBeforeIt : Obligations.ResetDropsTheCommandBeforeIt := by
  intro s c rest hw hl hi
  obtain ⟨r, ht⟩ := step_command hw hl hi
  refine ⟨_, applyReset { s with inputs := rest }, ht, ?after, step_of_reset hw rfl⟩
  case after =>
    rw [step_of_reset ((congrArg Config.wf (step_cfg ht)).trans hw)
      ((step_inputs ht).trans (congrArg List.tail hi)), applyReset_effect_pushResponse]
    rfl

/-- Settles O43, layout by layout. -/
theorem encRightAfterReset : Obligations.EncRightAfterReset := by
  intro s d cA cB rest hw hi
  obtain ⟨t, ht, hvalid, hframe⟩ := step_enc_applyReset
    (s := { s with inputs := .command ⟨0x06, d, cA, cB⟩ :: rest }) hw rfl
  refine ⟨_, t, step_of_reset hw hi, ht, hvalid, hframe.trans (congrArg some ?bytes)⟩
  case bytes =>
    show encodeFrame s.cfg.layout ⟨0, 0, cA, cB, 0⟩ = _
    cases s.cfg.layout with
    | nibble => exact encNibble_of_zero cA cB
    | struct => exact encStruct_of_zero cA cB

end Sys2Proof.Machine
